-- ==== Sys2Proof/Word.lean ====
section
/-! DEFINITION. The word types: a buffer byte, a 16-bit field and a 32-bit register slot (spec/00_scope.md R9: every value is an
unsigned number of a stated width). -/

namespace Sys2Proof

/-- One byte of a buffer or of a wire header. -/
abbrev Byte := BitVec 8

/-- A 16-bit field: a port, a length, a checksum. -/
abbrev Half := BitVec 16

/-- A 32-bit register slot, command word, address or sequence number. -/
abbrev Word := BitVec 32

end Sys2Proof
end

