-- ==== Sys2Proof/Config.lean ====
section
/-! DEFINITION. What the spec leaves to the platform or to the environment: the OPEN parameters (spec/00_scope.md R7,
spec/20_memory.md R59) and the free values (spec/93_implementation_defined.md U1, U2, U5). None has a body, so nothing can be proved
of a value of any of them. The numbers the spec fixes are in Machine/Params.lean. -/

namespace Sys2Proof

/-- The three byte buffers (spec/10_state.md R35). -/
inductive Buf where
  | ibuf
  | obuf
  | pbuf
  deriving DecidableEq, Repr

/-- The transport's answer to a send (spec/20_memory.md R63). -/
inductive SendAnswer where
  | ok
  | error
  deriving DecidableEq, Repr, Inhabited

/-- The transport's answer to a receive (spec/20_memory.md R64). -/
inductive RecvAnswer where
  /-- One received packet. -/
  | bytes (b : List Byte)
  /-- "no packet yet, keep waiting". -/
  | timeout
  /-- The receive failed. -/
  | error
  deriving DecidableEq, Repr, Inhabited

namespace Config

/-- `TIME_UNIT`, the length of one time-unit; no rule reads it (R7, U3). -/
opaque timeUnit : Nat

/-- `REG_BASE`, the bus address of register 0 (R59, U15). -/
opaque regBase : Nat

/-- `IBUF_BASE`, `OBUF_BASE`, `PBUF_BASE`: the bus address of byte 0 of each buffer (R59, U15). -/
opaque bufBase : Buf → Nat

/-- The byte that a buffer holds at an index nothing has written since the reset or INIT with this number (R35, U1;
notes/assumptions/1.md). -/
opaque freeByte : Nat → Buf → Nat → Byte

/-- The answer of `Draw32` when none is scripted, for the port operation with this number (R67, U2; notes/assumptions/3.md). -/
opaque draw32 : Nat → Word

/-- The answer of `Draw16` when none is scripted (R67, U2; notes/assumptions/3.md). -/
opaque draw16 : Nat → Half

/-- The answer of `Send` when none is scripted (R63, U5; notes/assumptions/3.md). -/
opaque sendAnswer : Nat → SendAnswer

/-- The answer of `Recv` when none is scripted (R64, U5; notes/assumptions/3.md). -/
opaque recvAnswer : Nat → RecvAnswer

end Config

end Sys2Proof
end

