-- ==== Sys2Proof/Syntax.lean ====
section
/-! DEFINITION. The instructions: the 13 commands of spec/opcode_table.json (spec/30_encoding.md R96). A command word has no operand
fields (R95), so no constructor has an argument: every operand is a named register or buffer (R98). -/

namespace Sys2Proof

/-- The commands a host can start by writing CMD, in the order of spec/30_encoding.md R96. -/
inductive Instr where
  /-- CSUM, 0x01: the internet checksum of `IBUF[0:ILEN]` (R111). -/
  | csum
  /-- PSEUDO, 0x02: the TCP pseudo-header (R113). -/
  | pseudo
  /-- ENC_TCP, 0x03: encode the T file as a TCP header (R121). -/
  | encTcp
  /-- DEC_TCP, 0x04: decode a TCP header into the T file (R123). -/
  | decTcp
  /-- ENC_IP, 0x05: encode the I file as an IPv4 header (R125). -/
  | encIp
  /-- DEC_IP, 0x06: decode an IPv4 header into the I file (R128). -/
  | decIp
  /-- BUILD_TCP, 0x08: build a TCP segment with its checksum (R141). -/
  | buildTcp
  /-- BUILD_IP, 0x09: build an IPv4 header (R143). -/
  | buildIp
  /-- BUILD_PKT, 0x0A: build a whole packet (R145). -/
  | buildPkt
  /-- PARSE, 0x0B: parse received bytes into the P file (R156). -/
  | parse
  /-- CONNECT, 0x10: the handshake (R171). -/
  | connect
  /-- SEND, 0x11: one data segment (R181). -/
  | send
  /-- INIT, 0x1F: back to the reset state (R184). -/
  | init
  deriving DecidableEq, Repr

end Sys2Proof
end

