-- ==== Sys2Proof/Machine/State.lean ====
section
/-! DEFINITION. The state as plain data: the block's own state, exactly the list of spec/10_state.md R20, and the model's record of the
block's environment (what it will do next, what it answers, what the block showed it). -/

namespace Sys2Proof.Machine

/-- STATUS.CONN, the ConnectionState (R23); the code 3 is never held (spec/93_implementation_defined.md U8). -/
inductive Conn where
  | closed
  | synSent
  | established
  deriving DecidableEq, Repr

/-- The contents of ERR (R25, spec/60_exceptions.md R200); the code 7 is never held (U8). -/
inductive Err where
  | noError
  | malformedHeader
  | handshakeTimeout
  | notConnected
  | transportError
  | illegalCommand
  | badLength
  deriving DecidableEq, Repr

/-- The operand registers A_* (R26). -/
structure OperandFile where
  srcIp  : Word
  dstIp  : Word
  proto  : Byte
  segLen : Half
  ipId   : Half
  deriving DecidableEq, Repr

/-- The TCP field file T_* (R29), and the field record of `encode_tcp` and `decode_tcp` (spec/41_header_codec.md R120). -/
structure TcpHeader where
  sport : Half
  dport : Half
  seq   : Word
  ack   : Word
  doff  : BitVec 4
  flags : BitVec 6
  win   : Half
  csum  : Half
  urg   : Half
  deriving DecidableEq, Repr

/-- The IPv4 field file I_* (R31), and the field record of `encode_ip` and `decode_ip` (R124). -/
structure IpHeader where
  ver    : BitVec 4
  ihl    : BitVec 4
  tos    : Byte
  totlen : Half
  id     : Half
  frag   : Half
  ttl    : Byte
  proto  : Byte
  csum   : Half
  src    : Word
  dst    : Word
  deriving DecidableEq, Repr

/-- The parsed-packet file P_* (R32). -/
structure ParsedFile where
  valid  : BitVec 1
  sport  : Half
  dport  : Half
  seq    : Word
  ack    : Word
  flags  : BitVec 6
  iphl   : BitVec 6
  tcphl  : BitVec 6
  payoff : Half
  paylen : Half
  deriving DecidableEq, Repr

/-- The connection file C_* (R33, R34). -/
structure ConnectionFile where
  localIp    : Word
  remoteIp   : Word
  remotePort : Half
  localPort  : Half
  seq        : Word
  ack        : Word
  window     : Half
  ipId       : Half
  timer      : BitVec 3
  deriving DecidableEq, Repr

/-- What has been written to a buffer since reset or INIT: (index, byte) pairs, the indices strictly rising. An index that is not
listed holds no value of the model's own: see `State.readByte` in Machine/Ops.lean. -/
abbrev Memory := List Host.Cell

/-- The block's architectural state (R20). CMD has no field: it "holds nothing between commands" (R22) and reads as 0. -/
structure Block where
  busy   : Bool
  conn   : Conn
  err    : Err
  a      : OperandFile
  ilen   : Half
  olen   : Half
  plen   : Half
  rCsum  : Half
  rIphl  : BitVec 6
  rTcphl : BitVec 6
  t      : TcpHeader
  i      : IpHeader
  p      : ParsedFile
  c      : ConnectionFile
  ibuf   : Memory
  obuf   : Memory
  pbuf   : Memory
  deriving DecidableEq, Repr

/-- What can happen next: the labels of spec/44_handshake.md R186. A command is `hostWrite 0 w`. -/
inductive Event where
  /-- The host reads register number `n`. -/
  | hostRead (n : Nat)
  /-- The host reads byte `i` of a buffer. -/
  | hostBufRead (b : Buf) (i : Nat)
  /-- The host writes `v` to register number `n`; number 0 is CMD. -/
  | hostWrite (n : Nat) (v : Word)
  /-- The host writes byte `i` of a buffer. -/
  | hostBufWrite (b : Buf) (i : Nat) (v : Byte)
  /-- The block polls the transport. -/
  | rx
  /-- The time base ticks. -/
  | tick
  /-- The reset input. -/
  | reset
  deriving DecidableEq, Repr

/-- What the block shows its environment: answers to host reads, and its operations on the ports with their answers. -/
inductive Obs where
  /-- A host read of register number `n` was answered with `v`. -/
  | read (n : Nat) (v : Word)
  /-- A host read of a buffer byte was answered with `v`. -/
  | bufRead (b : Buf) (i : Nat) (v : Byte)
  /-- `Draw32` was answered with `v`. -/
  | drew32 (v : Word)
  /-- `Draw16` was answered with `v`. -/
  | drew16 (v : Half)
  /-- `Send(pkt, dst)` was answered with `r`. -/
  | sent (pkt : List Byte) (dst : Word) (r : SendAnswer)
  /-- `Recv(max)` was answered with `r`. -/
  | polled (max : Nat) (r : RecvAnswer)
  deriving DecidableEq, Repr

/-- The model's record of the environment (notes/assumptions/2.md, 3.md, 4.md); none of it is state of the block (R36). -/
structure Environment where
  /-- What happens next, first event first. -/
  events      : List Event
  /-- Scripted answers of `Draw32`, first answer first. -/
  draws32     : List Word
  /-- Scripted answers of `Draw16`. -/
  draws16     : List Half
  /-- Scripted answers of `Send`. -/
  sendAnswers : List SendAnswer
  /-- Scripted answers of `Recv`. -/
  recvAnswers : List RecvAnswer
  /-- How many port operations have been made: the number under which a free answer is taken. -/
  portOps     : Nat
  /-- How many resets and INITs have been: the number under which the free bytes of the buffers are taken. -/
  epoch       : Nat
  /-- What the block has shown, oldest first. -/
  trace       : List Obs
  deriving DecidableEq, Repr

/-- The machine: the block and the record of its environment. -/
structure State where
  block : Block
  env   : Environment
  deriving DecidableEq, Repr

/-- Why the machine stops. -/
inductive Fault where
  /-- Raised by a host access to a buffer index at or above `BUF_MAX`: spec/20_memory.md R56 gives a buffer no such byte. Safe: the
  spec has no such access (notes/assumptions/7.md). -/
  | noSuchBufferByte (b : Buf) (i : Nat)
  deriving DecidableEq, Repr

/-- Why an instruction has no meaning. -/
inductive Refusal where
  /-- Raised by an arm of `exec` whose instruction has no meaning yet; no arm is left in that form. Safe. -/
  | notModelled (mnemonic : String)
  deriving DecidableEq, Repr

/-- What one step answers. -/
abbrev Result := Host.Outcome State Fault Refusal

/-- The block after reset: every register 0 but A_PROTO, T_DOFF, I_VER, I_IHL, I_TTL and I_PROTO, and no buffer byte written
(R39, spec/70_reset_and_hazards.md R230). -/
def Block.reset : Block where
  busy := false
  conn := .closed
  err := .noError
  a := { srcIp := 0, dstIp := 0, proto := 6, segLen := 0, ipId := 0 }
  ilen := 0
  olen := 0
  plen := 0
  rCsum := 0
  rIphl := 0
  rTcphl := 0
  t := { sport := 0, dport := 0, seq := 0, ack := 0, doff := 5, flags := 0, win := 0, csum := 0, urg := 0 }
  i := { ver := 4, ihl := 5, tos := 0, totlen := 0, id := 0, frag := 0, ttl := 64, proto := 6, csum := 0, src := 0, dst := 0 }
  p := { valid := 0, sport := 0, dport := 0, seq := 0, ack := 0, flags := 0, iphl := 0, tcphl := 0, payoff := 0, paylen := 0 }
  c := { localIp := 0, remoteIp := 0, remotePort := 0, localPort := 0, seq := 0, ack := 0, window := 0, ipId := 0, timer := 0 }
  ibuf := []
  obuf := []
  pbuf := []

/-- The record of the environment at reset: nothing scheduled, nothing scripted, nothing shown. DESIGN CHOICE
(notes/assumptions/11.md). -/
def Environment.reset : Environment where
  events := []
  draws32 := []
  draws16 := []
  sendAnswers := []
  recvAnswers := []
  portOps := 0
  epoch := 0
  trace := []

/-- The machine right after reset (R39). -/
def State.reset : State where
  block := Block.reset
  env := Environment.reset

end Sys2Proof.Machine
end

