-- ==== Sys2Proof/Machine/Params.lean ====
section
/-! DEFINITION. The numbers spec/00_scope.md R7 fixes for this hardware. -/

namespace Sys2Proof.Machine

/-- `VERSION`, the version nibble of built IPv4 headers. -/
def version : BitVec 4 := 4

/-- `DEFAULT_IHL`, in 32-bit words. -/
def defaultIhl : BitVec 4 := 5

/-- `DEFAULT_TTL`. -/
def defaultTtl : Byte := 64

/-- `PROTO_TCP`. -/
def protoTcp : Byte := 6

/-- `DEFAULT_DOFF`, in 32-bit words. -/
def defaultDoff : BitVec 4 := 5

/-- `TCP_HDR_BYTES`. -/
def tcpHdrBytes : Nat := 20

/-- `IP_HDR_BYTES`. -/
def ipHdrBytes : Nat := 20

/-- `HS_TIMEOUT`, in time-units; fixed (spec/90_conflicts.md C2). -/
def hsTimeout : BitVec 3 := 5

/-- `BUF_MAX`, the number of bytes of each buffer. -/
def bufMax : Nat := 65535

/-- `RX_MAX`, the `max_size` of every receive. -/
def rxMax : Nat := 65535

/-- `BUILD_TOS`, the type of service of built headers. -/
def buildTos : Byte := 0

/-- The largest number a 16-bit length field holds (spec/42_packet_builder.md R147). -/
def lengthFieldMax : Nat := 65535

end Sys2Proof.Machine
end

