-- ==== Sys2Proof/Machine/Ops.lean ====
section
/-! DEFINITION. The shared operations: big-endian byte sequences, the byte buffers, the environment ports, and how a command ends. -/

namespace Sys2Proof.Machine

/-! ### Byte sequences (spec/00_scope.md R10, spec/20_memory.md R51 to R53) -/

/-- `be16(v)`. -/
def be16 (v : Half) : List Byte := [v.extractLsb' 8 8, v.extractLsb' 0 8]

/-- `be32(v)`. -/
def be32 (v : Word) : List Byte :=
  [v.extractLsb' 24 8, v.extractLsb' 16 8, v.extractLsb' 8 8, v.extractLsb' 0 8]

/-- `b[k]`; 0 beyond the end, where no rule reads. -/
def byteAt (b : List Byte) (k : Nat) : Byte := b.getD k 0

/-- `b[k]*256 + b[k+1]`, the big-endian 16-bit number at `k`. -/
def be16At (b : List Byte) (k : Nat) : Half := BitVec.ofNat 16 ((byteAt b k).toNat * 2 ^ 8 + (byteAt b (k + 1)).toNat)

/-- `b[k]*2^24 + b[k+1]*2^16 + b[k+2]*256 + b[k+3]`, the big-endian 32-bit number at `k`. -/
def be32At (b : List Byte) (k : Nat) : Word :=
  BitVec.ofNat 32 ((byteAt b k).toNat * 2 ^ 24 + (byteAt b (k + 1)).toNat * 2 ^ 16 + (byteAt b (k + 2)).toNat * 2 ^ 8
    + (byteAt b (k + 3)).toNat)

/-- The unsigned number whose big-endian bytes these are. -/
def beNumber : List Byte → Nat
  | [] => 0
  | x :: r => x.toNat * 256 ^ r.length + beNumber r

/-- The `n` big-endian bytes of `v`: byte `k` is `(v >> (8 * (n-1-k))) & 0xFF` (R53). -/
def beBytes : Nat → Nat → List Byte
  | 0, _ => []
  | n + 1, v => BitVec.ofNat 8 (v / 256 ^ n) :: beBytes n v

/-! ### A buffer as a list of cells in canonical form -/

/-- The indices rise strictly, from `lo` on, and stay below `BUF_MAX`. -/
def Memory.risingFrom : Nat → Memory → Bool
  | _, [] => true
  | lo, (k, _) :: r => decide (lo ≤ k) && decide (k < bufMax) && Memory.risingFrom (k + 1) r

/-- The canonical form of a buffer: indices strictly rising and below `BUF_MAX`. -/
def Memory.wf (m : Memory) : Bool := Memory.risingFrom 0 m

/-- The byte written at index `k`, or none where nothing has been written since reset or INIT (R35). -/
def Memory.read : Memory → Nat → Option Byte
  | [], _ => none
  | (j, v) :: r, k => if j = k then some v else Memory.read r k

/-- Writing one byte. -/
def Memory.write : Memory → Nat → Byte → Memory
  | [], k, v => [(k, v)]
  | (j, w) :: r, k, v =>
    if k < j then (k, v) :: (j, w) :: r
    else if k = j then (k, v) :: r
    else (j, w) :: Memory.write r k v

/-- The cells that hold the bytes of `b` from index `k` on. -/
def cellsFrom : Nat → List Byte → Memory
  | _, [] => []
  | k, x :: r => (k, x) :: cellsFrom (k + 1) r

/-- `BUF[0:n] <- b` with `n = len(b)`: the bytes at `n` and above keep what they held (R35, R12). -/
def Memory.writeFront (m : Memory) (b : List Byte) : Memory :=
  cellsFrom 0 b ++ m.filter (fun cell => decide (b.length ≤ cell.1))

/-- Writing the bytes of `b` from index `k` on, one at a time. -/
def Memory.writeAll : Memory → Nat → List Byte → Memory
  | m, _, [] => m
  | m, k, x :: r => Memory.writeAll (Memory.write m k x) (k + 1) r

/-- `MemWrite(BUF, off, n, v)` (R53). -/
def Memory.memWrite (m : Memory) (off n v : Nat) : Memory := Memory.writeAll m off (beBytes n v)

/-- The cells of a buffer. -/
def Block.buf (b : Block) : Buf → Memory
  | .ibuf => b.ibuf
  | .obuf => b.obuf
  | .pbuf => b.pbuf

/-- The byte a buffer holds at index `k`: the one last written, or, where nothing has been written since reset or INIT, an unspecified
one (R35, spec/93_implementation_defined.md U1; notes/assumptions/1.md). -/
def State.readByte (s : State) (b : Buf) (k : Nat) : Byte :=
  match Memory.read (s.block.buf b) k with
  | some v => v
  | none => Config.freeByte s.env.epoch b k

/-- `BUF[off : off+n]` (R12). -/
def State.slice (s : State) (b : Buf) (off n : Nat) : List Byte :=
  (List.range n).map fun k => s.readByte b (off + k)

/-- `MemRead(BUF, off, n)` (R52). -/
def State.memRead (s : State) (b : Buf) (off n : Nat) : Nat := beNumber (s.slice b off n)

/-- `OBUF[0:n] <- b; OLEN <- n`. -/
def putObuf (b : List Byte) (s : State) : State :=
  { s with block := { s.block with obuf := Memory.writeFront s.block.obuf b, olen := BitVec.ofNat 16 b.length } }

/-- `IBUF[0:n] <- b; ILEN <- n`, of a receive step (spec/44_handshake.md R175). -/
def putIbuf (b : List Byte) (s : State) : State :=
  { s with block := { s.block with ibuf := Memory.writeFront s.block.ibuf b, ilen := BitVec.ofNat 16 b.length } }

/-- `R_CSUM <- v` (spec/10_state.md R28). -/
def putCsum (v : Half) (s : State) : State := { s with block := { s.block with rCsum := v } }

/-! ### How a command ends -/

/-- A command's last write on success: `ERR <- 0` (R25). -/
def finish (s : State) : State := { s with block := { s.block with err := .noError } }

/-- `raise e`: `ERR <- code; STATUS.BUSY <- 0`, and no further write. This is the block's form of taking an exception: nothing is saved
and control goes nowhere, so there is no return from it (spec/60_exceptions.md R209, R210). -/
def raise (e : Err) (s : State) : State := { s with block := { s.block with err := e, busy := false } }

/-- `phase <- WAIT` (R12, spec/10_state.md R24). -/
def enterWait (s : State) : State := { s with block := { s.block with busy := true } }

/-- `phase <- IDLE` (R12, R24). -/
def leaveWait (s : State) : State := { s with block := { s.block with busy := false } }

/-! ### The environment ports (spec/20_memory.md R62 to R68; notes/assumptions/3.md) -/

/-- The block shows its environment one observation. -/
def observe (o : Obs) (s : State) : State := { s with env := { s.env with trace := s.env.trace ++ [o] } }

/-- A port operation has been made and shown. -/
def countPortOp (o : Obs) (s : State) : State :=
  { s with env := { s.env with portOps := s.env.portOps + 1, trace := s.env.trace ++ [o] } }

/-- The value `Draw32` answers: the next scripted one, or a free one (R67). -/
def draw32 (s : State) : Word :=
  match s.env.draws32 with
  | v :: _ => v
  | [] => Config.draw32 s.env.portOps

/-- The state after `Draw32`. -/
def afterDraw32 (s : State) : State :=
  countPortOp (.drew32 (draw32 s)) { s with env := { s.env with draws32 := s.env.draws32.tail } }

/-- The value `Draw16` answers (R67). -/
def draw16 (s : State) : Half :=
  match s.env.draws16 with
  | v :: _ => v
  | [] => Config.draw16 s.env.portOps

/-- The state after `Draw16`. -/
def afterDraw16 (s : State) : State :=
  countPortOp (.drew16 (draw16 s)) { s with env := { s.env with draws16 := s.env.draws16.tail } }

/-- The transport's answer to a send (R63). -/
def sendAnswer (s : State) : SendAnswer :=
  match s.env.sendAnswers with
  | r :: _ => r
  | [] => Config.sendAnswer s.env.portOps

/-- The state after `Send(pkt, dst)`: one indivisible step together with its answer (R63). -/
def afterSend (pkt : List Byte) (dst : Word) (s : State) : State :=
  countPortOp (.sent pkt dst (sendAnswer s)) { s with env := { s.env with sendAnswers := s.env.sendAnswers.tail } }

/-- An answer to `Recv(RX_MAX)` has at most `RX_MAX` bytes (R64; notes/assumptions/6.md). -/
def limitAnswer : RecvAnswer → RecvAnswer
  | .bytes b => .bytes (b.take rxMax)
  | .timeout => .timeout
  | .error => .error

/-- The transport's answer to a receive (R64). -/
def recvAnswer (s : State) : RecvAnswer :=
  match s.env.recvAnswers with
  | r :: _ => limitAnswer r
  | [] => limitAnswer (Config.recvAnswer s.env.portOps)

/-- The state after `Recv(RX_MAX)`. -/
def afterRecv (s : State) : State :=
  countPortOp (.polled rxMax (recvAnswer s)) { s with env := { s.env with recvAnswers := s.env.recvAnswers.tail } }

/-- A packet is written to OBUF and then handed to the transport for `C_REMOTE_IP` (R63, spec/44_handshake.md R172). The answer is
`sendAnswer` of the state before. -/
def transmit (pkt : List Byte) (s : State) : State := afterSend pkt s.block.c.remoteIp (putObuf pkt s)

end Sys2Proof.Machine
end

