-- ==== Sys2Proof/Machine/Flags.lean ====
section
/-! DEFINITION. The status fields and the six TCP flag bits. There are no arithmetic condition codes: STATUS, ERR and P_VALID are the
only status state (spec/10_state.md R23, R25, R32), and T_FLAGS and P_FLAGS are data fields (R30). -/

namespace Sys2Proof.Machine

/-- The code of the ConnectionState in STATUS bits 2:1 (R23). -/
def connCode : Conn → BitVec 2
  | .closed => 0
  | .synSent => 1
  | .established => 2

/-- BUSY, STATUS bit 0 (R23). -/
def busyBit (busy : Bool) : BitVec 1 := if busy then 1 else 0

/-- STATUS as the host reads it: BUSY in bit 0, CONN in bits 2:1, zero above (R23). -/
def statusWord (b : Block) : Word := (connCode b.conn).setWidth 32 <<< 1 ||| (busyBit b.busy).setWidth 32

/-- The code of an error in ERR (spec/60_exceptions.md R200). -/
def errCode : Err → BitVec 3
  | .noError => 0
  | .malformedHeader => 1
  | .handshakeTimeout => 2
  | .notConnected => 3
  | .transportError => 4
  | .illegalCommand => 5
  | .badLength => 6

/-- FIN, bit 0 of the flag byte (R30). -/
def flagFin : BitVec 6 := 0x01

/-- SYN, bit 1. -/
def flagSyn : BitVec 6 := 0x02

/-- RST, bit 2. -/
def flagRst : BitVec 6 := 0x04

/-- PSH, bit 3. -/
def flagPsh : BitVec 6 := 0x08

/-- ACK, bit 4. -/
def flagAck : BitVec 6 := 0x10

/-- URG, bit 5. -/
def flagUrg : BitVec 6 := 0x20

/-- SYN and ACK are both set, whatever the other flags are: `flags & 0x12 = 0x12` (spec/44_handshake.md R177). -/
def isSynAck (flags : BitVec 6) : Bool := flags &&& (flagSyn ||| flagAck) == (flagSyn ||| flagAck)

/-- The flag byte of an encoded header: the six flags with bits 7:6 zero (spec/30_encoding.md R82). -/
def flagByte (flags : BitVec 6) : Byte := flags.setWidth 8

/-- The six flags of a flag byte: `byte13 & 0x3F` (R82). -/
def flagsOfByte (x : Byte) : BitVec 6 := x.setWidth 6

/-- Byte 12 of an encoded TCP header: `T_DOFF << 4`, the reserved nibble zero (R81). -/
def offsetByte (doff : BitVec 4) : Byte := doff.setWidth 8 <<< 4

/-- The data offset in byte 12: `byte12 >> 4` (R81). -/
def offsetOfByte (x : Byte) : BitVec 4 := (x >>> 4).setWidth 4

/-- Byte 0 of an encoded IPv4 header: `(I_VER << 4) | I_IHL` (R85). -/
def versionByte (ver ihl : BitVec 4) : Byte := ver.setWidth 8 <<< 4 ||| ihl.setWidth 8

/-- The version in byte 0: `byte0 >> 4` (R85). -/
def versionOfByte (x : Byte) : BitVec 4 := (x >>> 4).setWidth 4

/-- The header-length nibble of byte 0: `byte0 & 0x0F` (R85). -/
def ihlOfByte (x : Byte) : BitVec 4 := x.setWidth 4

/-- A header length of `w` 32-bit words, in bytes (R81, R85): 0, 4, ..., 60. -/
def headerBytes (w : BitVec 4) : Nat := w.toNat * 4

end Sys2Proof.Machine
end

