-- ==== Sys2Proof/Machine/Operands.lean ====
section
/-! DEFINITION. The operands: the register space as the host reaches it by number (spec/10_state.md R21 to R37), and the byte sequences
and field records that the commands take from registers and buffers (spec/30_encoding.md R98). -/

namespace Sys2Proof.Machine

/-! ### The register space -/

/-- The registers, by the spec's names (R22 to R33). -/
inductive Reg where
  | CMD | STATUS | ERR
  | A_SRC_IP | A_DST_IP | A_PROTO | A_SEGLEN | A_IP_ID
  | ILEN | OLEN | PLEN
  | R_CSUM | R_IPHL | R_TCPHL
  | T_SPORT | T_DPORT | T_SEQ | T_ACK | T_DOFF | T_FLAGS | T_WIN | T_CSUM | T_URG
  | I_VER | I_IHL | I_TOS | I_TOTLEN | I_ID | I_FRAG | I_TTL | I_PROTO | I_CSUM | I_SRC | I_DST
  | P_VALID | P_SPORT | P_DPORT | P_SEQ | P_ACK | P_FLAGS | P_IPHL | P_TCPHL | P_PAYOFF | P_PAYLEN
  | C_LOCAL_IP | C_REMOTE_IP | C_REMOTE_PORT | C_LOCAL_PORT | C_SEQ | C_ACK | C_WINDOW | C_IP_ID | C_TIMER
  deriving DecidableEq, Repr

/-- What the host may do with a register (R22 to R33). -/
inductive Access where
  | readWrite
  | readOnly
  | writeOnly
  deriving DecidableEq, Repr

/-- Numbers, access rights and widths of the control, operand, length and result registers (R22 to R28). -/
def controlTable : List (Nat × Reg × Access × Nat) :=
  [(0x00, .CMD, .writeOnly, 32), (0x01, .STATUS, .readOnly, 32), (0x02, .ERR, .readOnly, 3),
   (0x04, .A_SRC_IP, .readWrite, 32), (0x05, .A_DST_IP, .readWrite, 32), (0x06, .A_PROTO, .readWrite, 8),
   (0x07, .A_SEGLEN, .readWrite, 16), (0x08, .A_IP_ID, .readWrite, 16),
   (0x09, .ILEN, .readWrite, 16), (0x0A, .OLEN, .readOnly, 16), (0x0B, .PLEN, .readWrite, 16),
   (0x0C, .R_CSUM, .readOnly, 16), (0x0D, .R_IPHL, .readOnly, 6), (0x0E, .R_TCPHL, .readOnly, 6)]

/-- The TCP field file (R29). -/
def tcpTable : List (Nat × Reg × Access × Nat) :=
  [(0x10, .T_SPORT, .readWrite, 16), (0x11, .T_DPORT, .readWrite, 16), (0x12, .T_SEQ, .readWrite, 32),
   (0x13, .T_ACK, .readWrite, 32), (0x14, .T_DOFF, .readWrite, 4), (0x15, .T_FLAGS, .readWrite, 6),
   (0x16, .T_WIN, .readWrite, 16), (0x17, .T_CSUM, .readWrite, 16), (0x18, .T_URG, .readWrite, 16)]

/-- The IPv4 field file (R31). -/
def ipTable : List (Nat × Reg × Access × Nat) :=
  [(0x20, .I_VER, .readWrite, 4), (0x21, .I_IHL, .readWrite, 4), (0x22, .I_TOS, .readWrite, 8),
   (0x23, .I_TOTLEN, .readWrite, 16), (0x24, .I_ID, .readWrite, 16), (0x25, .I_FRAG, .readWrite, 16),
   (0x26, .I_TTL, .readWrite, 8), (0x27, .I_PROTO, .readWrite, 8), (0x28, .I_CSUM, .readWrite, 16),
   (0x29, .I_SRC, .readWrite, 32), (0x2A, .I_DST, .readWrite, 32)]

/-- The parsed-packet file (R32). -/
def parsedTable : List (Nat × Reg × Access × Nat) :=
  [(0x30, .P_VALID, .readOnly, 1), (0x31, .P_SPORT, .readOnly, 16), (0x32, .P_DPORT, .readOnly, 16),
   (0x33, .P_SEQ, .readOnly, 32), (0x34, .P_ACK, .readOnly, 32), (0x35, .P_FLAGS, .readOnly, 6),
   (0x36, .P_IPHL, .readOnly, 6), (0x37, .P_TCPHL, .readOnly, 6), (0x38, .P_PAYOFF, .readOnly, 16),
   (0x39, .P_PAYLEN, .readOnly, 16)]

/-- The connection file (R33). -/
def connectionTable : List (Nat × Reg × Access × Nat) :=
  [(0x40, .C_LOCAL_IP, .readWrite, 32), (0x41, .C_REMOTE_IP, .readWrite, 32), (0x42, .C_REMOTE_PORT, .readWrite, 16),
   (0x43, .C_LOCAL_PORT, .readOnly, 16), (0x44, .C_SEQ, .readOnly, 32), (0x45, .C_ACK, .readOnly, 32),
   (0x46, .C_WINDOW, .readWrite, 16), (0x47, .C_IP_ID, .readWrite, 16), (0x48, .C_TIMER, .readOnly, 3)]

/-- The register map; every other number is reserved (R21). -/
def registerTable : List (Nat × Reg × Access × Nat) :=
  controlTable ++ tcpTable ++ ipTable ++ parsedTable ++ connectionTable

/-- The register with number `n`, if `n` is not reserved (R21). -/
def regOfNumber (n : Nat) : Option Reg := (registerTable.lookup n).map (·.1)

/-- The row of a register in the map. -/
def regRow (r : Reg) : Option (Nat × Reg × Access × Nat) := registerTable.find? (fun row => row.2.1 == r)

/-- The number of a register. -/
def regNumber (r : Reg) : Nat := ((regRow r).map (·.1)).getD 0

/-- What the host may do with a register. -/
def regAccess (r : Reg) : Access := ((regRow r).map (·.2.2.1)).getD .readOnly

/-- The width of a register in bits. -/
def regWidth (r : Reg) : Nat := ((regRow r).map (·.2.2.2)).getD 0

/-- `x[n]` for a register: its value zero-extended to 32 bits; CMD reads as 0 (R21, R22, R37). -/
def readReg (r : Reg) (b : Block) : Word :=
  match r with
  | .CMD => 0
  | .STATUS => statusWord b
  | .ERR => (errCode b.err).setWidth 32
  | .A_SRC_IP => b.a.srcIp
  | .A_DST_IP => b.a.dstIp
  | .A_PROTO => b.a.proto.setWidth 32
  | .A_SEGLEN => b.a.segLen.setWidth 32
  | .A_IP_ID => b.a.ipId.setWidth 32
  | .ILEN => b.ilen.setWidth 32
  | .OLEN => b.olen.setWidth 32
  | .PLEN => b.plen.setWidth 32
  | .R_CSUM => b.rCsum.setWidth 32
  | .R_IPHL => b.rIphl.setWidth 32
  | .R_TCPHL => b.rTcphl.setWidth 32
  | .T_SPORT => b.t.sport.setWidth 32
  | .T_DPORT => b.t.dport.setWidth 32
  | .T_SEQ => b.t.seq
  | .T_ACK => b.t.ack
  | .T_DOFF => b.t.doff.setWidth 32
  | .T_FLAGS => b.t.flags.setWidth 32
  | .T_WIN => b.t.win.setWidth 32
  | .T_CSUM => b.t.csum.setWidth 32
  | .T_URG => b.t.urg.setWidth 32
  | .I_VER => b.i.ver.setWidth 32
  | .I_IHL => b.i.ihl.setWidth 32
  | .I_TOS => b.i.tos.setWidth 32
  | .I_TOTLEN => b.i.totlen.setWidth 32
  | .I_ID => b.i.id.setWidth 32
  | .I_FRAG => b.i.frag.setWidth 32
  | .I_TTL => b.i.ttl.setWidth 32
  | .I_PROTO => b.i.proto.setWidth 32
  | .I_CSUM => b.i.csum.setWidth 32
  | .I_SRC => b.i.src
  | .I_DST => b.i.dst
  | .P_VALID => b.p.valid.setWidth 32
  | .P_SPORT => b.p.sport.setWidth 32
  | .P_DPORT => b.p.dport.setWidth 32
  | .P_SEQ => b.p.seq
  | .P_ACK => b.p.ack
  | .P_FLAGS => b.p.flags.setWidth 32
  | .P_IPHL => b.p.iphl.setWidth 32
  | .P_TCPHL => b.p.tcphl.setWidth 32
  | .P_PAYOFF => b.p.payoff.setWidth 32
  | .P_PAYLEN => b.p.paylen.setWidth 32
  | .C_LOCAL_IP => b.c.localIp
  | .C_REMOTE_IP => b.c.remoteIp
  | .C_REMOTE_PORT => b.c.remotePort.setWidth 32
  | .C_LOCAL_PORT => b.c.localPort.setWidth 32
  | .C_SEQ => b.c.seq
  | .C_ACK => b.c.ack
  | .C_WINDOW => b.c.window.setWidth 32
  | .C_IP_ID => b.c.ipId.setWidth 32
  | .C_TIMER => b.c.timer.setWidth 32

/-- `x[n] <- v` by the host, with `BUSY = 0`: the low bits that fit are stored; a write to a read-only register is ignored (R37, R55).
A write to CMD stores nothing (R22): it starts a command, in Machine/HostPort.lean. -/
def writeReg (r : Reg) (v : Word) (b : Block) : Block :=
  match r with
  | .A_SRC_IP => { b with a := { b.a with srcIp := v } }
  | .A_DST_IP => { b with a := { b.a with dstIp := v } }
  | .A_PROTO => { b with a := { b.a with proto := v.setWidth 8 } }
  | .A_SEGLEN => { b with a := { b.a with segLen := v.setWidth 16 } }
  | .A_IP_ID => { b with a := { b.a with ipId := v.setWidth 16 } }
  | .ILEN => { b with ilen := v.setWidth 16 }
  | .PLEN => { b with plen := v.setWidth 16 }
  | .T_SPORT => { b with t := { b.t with sport := v.setWidth 16 } }
  | .T_DPORT => { b with t := { b.t with dport := v.setWidth 16 } }
  | .T_SEQ => { b with t := { b.t with seq := v } }
  | .T_ACK => { b with t := { b.t with ack := v } }
  | .T_DOFF => { b with t := { b.t with doff := v.setWidth 4 } }
  | .T_FLAGS => { b with t := { b.t with flags := v.setWidth 6 } }
  | .T_WIN => { b with t := { b.t with win := v.setWidth 16 } }
  | .T_CSUM => { b with t := { b.t with csum := v.setWidth 16 } }
  | .T_URG => { b with t := { b.t with urg := v.setWidth 16 } }
  | .I_VER => { b with i := { b.i with ver := v.setWidth 4 } }
  | .I_IHL => { b with i := { b.i with ihl := v.setWidth 4 } }
  | .I_TOS => { b with i := { b.i with tos := v.setWidth 8 } }
  | .I_TOTLEN => { b with i := { b.i with totlen := v.setWidth 16 } }
  | .I_ID => { b with i := { b.i with id := v.setWidth 16 } }
  | .I_FRAG => { b with i := { b.i with frag := v.setWidth 16 } }
  | .I_TTL => { b with i := { b.i with ttl := v.setWidth 8 } }
  | .I_PROTO => { b with i := { b.i with proto := v.setWidth 8 } }
  | .I_CSUM => { b with i := { b.i with csum := v.setWidth 16 } }
  | .I_SRC => { b with i := { b.i with src := v } }
  | .I_DST => { b with i := { b.i with dst := v } }
  | .C_LOCAL_IP => { b with c := { b.c with localIp := v } }
  | .C_REMOTE_IP => { b with c := { b.c with remoteIp := v } }
  | .C_REMOTE_PORT => { b with c := { b.c with remotePort := v.setWidth 16 } }
  | .C_WINDOW => { b with c := { b.c with window := v.setWidth 16 } }
  | .C_IP_ID => { b with c := { b.c with ipId := v.setWidth 16 } }
  | .CMD | .STATUS | .ERR | .OLEN | .R_CSUM | .R_IPHL | .R_TCPHL => b
  | .P_VALID | .P_SPORT | .P_DPORT | .P_SEQ | .P_ACK | .P_FLAGS | .P_IPHL | .P_TCPHL | .P_PAYOFF | .P_PAYLEN => b
  | .C_LOCAL_PORT | .C_SEQ | .C_ACK | .C_TIMER => b

/-- `x[n]`: a reserved number reads as 0 (R21). -/
def readNumber (n : Nat) (b : Block) : Word :=
  match regOfNumber n with
  | some r => readReg r b
  | none => 0

/-- `x[n] <- v`: a write to a reserved number is ignored (R21). -/
def writeNumber (n : Nat) (v : Word) (b : Block) : Block :=
  match regOfNumber n with
  | some r => writeReg r v b
  | none => b

/-- The byte offset of a register on a platform bus: `REG_BASE + 4n` (spec/20_memory.md R59). -/
def regBusAddress (r : Reg) : Nat := Config.regBase + 4 * regNumber r

/-- The bus address of byte `k` of a buffer (R59). -/
def bufBusAddress (b : Buf) (k : Nat) : Nat := Config.bufBase b + k

/-! ### The implicit operands of the commands -/

/-- `IBUF[0:ILEN]`. -/
def State.input (s : State) : List Byte := s.slice .ibuf 0 s.block.ilen.toNat

/-- `PBUF[0:PLEN]`. -/
def State.payload (s : State) : List Byte := s.slice .pbuf 0 s.block.plen.toNat

end Sys2Proof.Machine
end

