-- ==== Sys2Proof/Machine/Checksum.lean ====
section
/-! DEFINITION. The checksum engine: CSUM and PSEUDO (spec/40_checksum.md). -/

namespace Sys2Proof.Machine

/-- The pad: one trailing zero byte if the length is odd (R110). -/
def padEven (b : List Byte) : List Byte := if b.length % 2 = 1 then b ++ [0] else b

/-- The consecutive big-endian 16-bit words of a byte sequence of even length (R110). -/
def words16 : List Byte → List Nat
  | x :: y :: r => (x.toNat * 256 + y.toNat) :: words16 r
  | _ => []

/-- The sum of the words before folding (R110). It is a number without bound, as spec/40_checksum.md R115 allows: for every input the
block can form it is below 2^32 (notes/assumptions/12.md). -/
def rawSum (b : List Byte) : Nat := (words16 (padEven b)).sum

/-- `while (sum >> 16) != 0: sum = (sum >> 16) + (sum & 0xFFFF)` (R110). Every fold makes the sum smaller, so as many turns as the sum
is large are enough. -/
def foldCarries : Nat → Nat → Nat
  | 0, sum => sum
  | turns + 1, sum => if sum / 65536 = 0 then sum else foldCarries turns (sum / 65536 + sum % 65536)

/-- The folded sum of a byte sequence (R110). -/
def foldedSum (b : List Byte) : Nat := foldCarries (rawSum b) (rawSum b)

/-- `checksum(b)`: the one's complement of the low 16 bits of the folded sum (R110). -/
def checksum (b : List Byte) : Half := ~~~ BitVec.ofNat 16 (foldedSum b)

/-- `pseudo_header(src_ip, dst_ip, protocol, segment_length)` (R112). -/
def pseudoHeader (src dst : Word) (proto : Byte) (segLen : Half) : List Byte :=
  be32 src ++ be32 dst ++ [0x00, proto] ++ be16 segLen

/-- CSUM: `R_CSUM <- checksum(IBUF[0:ILEN])` (R111). -/
def execCsum (s : State) : Result :=
  .next (finish (putCsum (checksum s.input) s))

/-- PSEUDO: `OBUF[0:12] <- pseudo_header(A_SRC_IP, A_DST_IP, A_PROTO, A_SEGLEN); OLEN <- 12` (R113). -/
def execPseudo (s : State) : Result :=
  .next (finish (putObuf (pseudoHeader s.block.a.srcIp s.block.a.dstIp s.block.a.proto s.block.a.segLen) s))

end Sys2Proof.Machine
end

