-- ==== Sys2Proof/Machine/Codec.lean ====
section
/-! DEFINITION. The header codec: ENC_TCP, DEC_TCP, ENC_IP and DEC_IP (spec/41_header_codec.md). -/

namespace Sys2Proof.Machine

/-- `encode_tcp(f)`: always 20 bytes (R120, layout spec/30_encoding.md R80). -/
def encodeTcp (f : TcpHeader) : List Byte :=
  be16 f.sport ++ be16 f.dport ++ be32 f.seq ++ be32 f.ack ++ [offsetByte f.doff, flagByte f.flags]
    ++ be16 f.win ++ be16 f.csum ++ be16 f.urg

/-- `decode_tcp(b)`: none is MalformedHeader; only the first 20 bytes are read (R122). -/
def decodeTcp (b : List Byte) : Option TcpHeader :=
  if b.length < tcpHdrBytes then none
  else some
    { sport := be16At b 0, dport := be16At b 2, seq := be32At b 4, ack := be32At b 8,
      doff := offsetOfByte (byteAt b 12), flags := flagsOfByte (byteAt b 13),
      win := be16At b 14, csum := be16At b 16, urg := be16At b 18 }

/-- `encode_ip(g)`: always 20 bytes (R124, layout spec/30_encoding.md R84). -/
def encodeIp (g : IpHeader) : List Byte :=
  [versionByte g.ver g.ihl, g.tos] ++ be16 g.totlen ++ be16 g.id ++ be16 g.frag ++ [g.ttl, g.proto]
    ++ be16 g.csum ++ be32 g.src ++ be32 g.dst

/-- `ip_header_length(b) = (b[0] & 0x0F) * 4` (R126). -/
def ipHeaderLength (b : List Byte) : Nat := headerBytes (ihlOfByte (byteAt b 0))

/-- `decode_ip(b)`: none is MalformedHeader; only the first 20 bytes are read (R127). -/
def decodeIp (b : List Byte) : Option IpHeader :=
  if b.length < ipHdrBytes then none
  else some
    { ver := versionOfByte (byteAt b 0), ihl := ihlOfByte (byteAt b 0), tos := byteAt b 1, totlen := be16At b 2,
      id := be16At b 4, frag := be16At b 6, ttl := byteAt b 8, proto := byteAt b 9, csum := be16At b 10,
      src := be32At b 12, dst := be32At b 16 }

/-- ENC_TCP: the T file as held, no checksum computed (R121). -/
def execEncTcp (s : State) : Result := .next (finish (putObuf (encodeTcp s.block.t) s))

/-- `T_* <- f; R_TCPHL <- f.doff * 4` (R123). -/
def putTcp (f : TcpHeader) (s : State) : State :=
  { s with block := { s.block with t := f, rTcphl := BitVec.ofNat 6 (headerBytes f.doff) } }

/-- `I_* <- g; R_IPHL <- g.ihl * 4` (R128). -/
def putIp (g : IpHeader) (s : State) : State :=
  { s with block := { s.block with i := g, rIphl := BitVec.ofNat 6 (headerBytes g.ihl) } }

/-- DEC_TCP: a TCP header at index 0 of IBUF into the T file, its length in bytes into R_TCPHL; MalformedHeader below 20 bytes
(R123). -/
def execDecTcp (s : State) : Result :=
  match decodeTcp s.input with
  | none => .next (raise .malformedHeader s)
  | some f => .next (finish (putTcp f s))

/-- ENC_IP: the I file as held (R125). -/
def execEncIp (s : State) : Result := .next (finish (putObuf (encodeIp s.block.i) s))

/-- DEC_IP: an IPv4 header at index 0 of IBUF into the I file, its length in bytes into R_IPHL; MalformedHeader below 20 bytes
(R128). -/
def execDecIp (s : State) : Result :=
  match decodeIp s.input with
  | none => .next (raise .malformedHeader s)
  | some g => .next (finish (putIp g s))

end Sys2Proof.Machine
end

