-- ==== Sys2Proof/Machine/Builder.lean ====
section
/-! DEFINITION. The packet builder: BUILD_TCP, BUILD_IP and BUILD_PKT (spec/42_packet_builder.md). -/

namespace Sys2Proof.Machine

/-- The checksum of a segment: pass 1 of `build`, over the pseudo-header with protocol 6 and length `20 + len(payload)` and the header
with checksum 0 (R140). -/
def segmentChecksum (f : TcpHeader) (payload : List Byte) (src dst : Word) : Half :=
  checksum (pseudoHeader src dst protoTcp (BitVec.ofNat 16 (tcpHdrBytes + payload.length))
    ++ (encodeTcp { f with csum := 0 } ++ payload))

/-- `build(f, payload, src_ip, dst_ip)`: pass 2, the header encoded again with the checksum (R140). -/
def buildSegment (f : TcpHeader) (payload : List Byte) (src dst : Word) : List Byte :=
  encodeTcp { f with csum := segmentChecksum f payload src dst } ++ payload

/-- The fields of a built IPv4 header, its checksum left 0 (R142, R146). -/
def builtIpHeader (payloadLen : Nat) (src dst : Word) (id : Half) : IpHeader where
  ver := version
  ihl := defaultIhl
  tos := buildTos
  totlen := BitVec.ofNat 16 (ipHdrBytes + payloadLen)
  id := id
  frag := 0
  ttl := defaultTtl
  proto := protoTcp
  csum := 0
  src := src
  dst := dst

/-- `build_ip(payload_len, src_ip, dst_ip, id)` (R142). -/
def buildIpHeader (payloadLen : Nat) (src dst : Word) (id : Half) : List Byte :=
  encodeIp (builtIpHeader payloadLen src dst id)

/-- `build_packet(f, payload, src_ip, dst_ip, id)` (R144). -/
def buildPacket (f : TcpHeader) (payload : List Byte) (src dst : Word) (id : Half) : List Byte :=
  buildIpHeader (buildSegment f payload src dst).length src dst id ++ buildSegment f payload src dst

/-- BUILD_TCP: BadLength above 65515 payload bytes; T_CSUM is neither read nor written (R141, R147). -/
def execBuildTcp (s : State) : Result :=
  if tcpHdrBytes + s.block.plen.toNat > lengthFieldMax then .next (raise .badLength s)
  else .next (finish (putCsum (segmentChecksum s.block.t s.payload s.block.a.srcIp s.block.a.dstIp)
    (putObuf (buildSegment s.block.t s.payload s.block.a.srcIp s.block.a.dstIp) s)))

/-- BUILD_IP: `payload_len` is A_SEGLEN; BadLength above 65515 (R143, R147). -/
def execBuildIp (s : State) : Result :=
  if ipHdrBytes + s.block.a.segLen.toNat > lengthFieldMax then .next (raise .badLength s)
  else .next (finish (putObuf (buildIpHeader s.block.a.segLen.toNat s.block.a.srcIp s.block.a.dstIp s.block.a.ipId) s))

/-- BUILD_PKT: BadLength above 65495 payload bytes (R145, R147). -/
def execBuildPkt (s : State) : Result :=
  if ipHdrBytes + tcpHdrBytes + s.block.plen.toNat > lengthFieldMax then .next (raise .badLength s)
  else .next (finish (putCsum (segmentChecksum s.block.t s.payload s.block.a.srcIp s.block.a.dstIp)
    (putObuf (buildPacket s.block.t s.payload s.block.a.srcIp s.block.a.dstIp s.block.a.ipId) s)))

end Sys2Proof.Machine
end

