-- ==== Sys2Proof/Machine/Parser.lean ====
section
/-! DEFINITION. The packet parser: PARSE (spec/43_packet_parser.md). -/

namespace Sys2Proof.Machine

/-- The source's ParsedPacket: what `parse` finds in raw bytes (R155). -/
structure ParsedPacket where
  sport  : Half
  dport  : Half
  seq    : Word
  ack    : Word
  flags  : BitVec 6
  /-- IPv4 header length found, in bytes. -/
  iphl   : Nat
  /-- TCP header length found, in bytes. -/
  tcphl  : Nat
  /-- Index of the first payload byte. -/
  payoff : Nat
  /-- Number of payload bytes. -/
  paylen : Nat
  deriving DecidableEq, Repr

/-- The packet found in `raw`, whose TCP header `f` lies at `ihl` (R155): the payload runs from `ihl + thl` to the end, and is empty
where that is at or beyond the end (R157). -/
def packetOf (raw : List Byte) (ihl : Nat) (f : TcpHeader) : ParsedPacket where
  sport := f.sport
  dport := f.dport
  seq := f.seq
  ack := f.ack
  flags := f.flags
  iphl := ihl
  tcphl := headerBytes f.doff
  payoff := min (ihl + headerBytes f.doff) raw.length
  paylen := raw.length - min (ihl + headerBytes f.doff) raw.length

/-- `parse(raw)`: none is "no packet", which is not an error (R155, spec/60_exceptions.md R213). -/
def parse (raw : List Byte) : Option ParsedPacket :=
  if raw.length < 1 then none
  else if raw.length < ipHeaderLength raw + tcpHdrBytes then none
  else (decodeTcp ((raw.drop (ipHeaderLength raw)).take tcpHdrBytes)).map (packetOf raw (ipHeaderLength raw))

/-- What a parse writes to the P file: all ten registers, zero where there is no packet (R156, spec/10_state.md R32). -/
def parsedFile : Option ParsedPacket → ParsedFile
  | none =>
    { valid := 0, sport := 0, dport := 0, seq := 0, ack := 0, flags := 0, iphl := 0, tcphl := 0, payoff := 0, paylen := 0 }
  | some r =>
    { valid := 1, sport := r.sport, dport := r.dport, seq := r.seq, ack := r.ack, flags := r.flags,
      iphl := BitVec.ofNat 6 r.iphl, tcphl := BitVec.ofNat 6 r.tcphl, payoff := BitVec.ofNat 16 r.payoff,
      paylen := BitVec.ofNat 16 r.paylen }

/-- `P_* <- r` (R156). -/
def putParsed (r : Option ParsedPacket) (s : State) : State := { s with block := { s.block with p := parsedFile r } }

/-- PARSE: `IBUF[0:ILEN]` into the P file; no error in either case (R156). -/
def execParse (s : State) : Result := .next (finish (putParsed (parse s.input) s))

end Sys2Proof.Machine
end

