-- ==== Sys2Proof/Machine/Handshake.lean ====
section
/-! DEFINITION. The handshake controller: CONNECT, SEND and INIT, and the two steps of CONNECT's wait (spec/44_handshake.md). -/

namespace Sys2Proof.Machine

/-- The TCP fields of a packet the controller makes (R172). -/
def ctlFields (c : ConnectionFile) (seq ack : Word) (flags : BitVec 6) : TcpHeader where
  sport := c.localPort
  dport := c.remotePort
  seq := seq
  ack := ack
  doff := defaultDoff
  flags := flags
  win := c.window
  csum := 0
  urg := 0

/-- `ctl_packet(seq, ack, flags, payload)`: from the connection file and constants alone (R172). -/
def ctlPacket (c : ConnectionFile) (seq ack : Word) (flags : BitVec 6) (payload : List Byte) : List Byte :=
  buildPacket (ctlFields c seq ack flags) payload c.localIp c.remoteIp c.ipId

/-- `C_LOCAL_PORT <- port; C_SEQ <- isn; C_ACK <- 0` (R171). -/
def putDrawn (isn : Word) (port : Half) (s : State) : State :=
  { s with block := { s.block with c := { s.block.c with localPort := port, seq := isn, ack := 0 } } }

/-- `C_ACK <- ack; C_SEQ <- seq` (R177). -/
def putNumbers (seq ack : Word) (s : State) : State :=
  { s with block := { s.block with c := { s.block.c with seq := seq, ack := ack } } }

/-- `C_TIMER <- v` (spec/10_state.md R34). -/
def putTimer (v : BitVec 3) (s : State) : State :=
  { s with block := { s.block with c := { s.block.c with timer := v } } }

/-- `STATUS.CONN <- v` (R170). -/
def putConn (v : Conn) (s : State) : State := { s with block := { s.block with conn := v } }

/-- The draws of CONNECT and the registers written from them (R171). -/
def drawn (s : State) : State :=
  putDrawn (draw32 s) (draw16 (afterDraw32 s)) (afterDraw16 (afterDraw32 s))

/-- The SYN (R173): the drawn sequence number, acknowledgment number 0, flags {SYN}, no payload. -/
def synPacket (s : State) : List Byte := ctlPacket s.block.c s.block.c.seq 0 flagSyn []

/-- CONNECT's first step in CLOSED: draw, write the registers, build and send the SYN, and wait (R171). -/
def openConnection (s : State) : State :=
  match sendAnswer (drawn s) with
  | .error => raise .transportError (transmit (synPacket (drawn s)) (drawn s))
  | .ok => enterWait (putTimer hsTimeout (putConn .synSent (transmit (synPacket (drawn s)) (drawn s))))

/-- CONNECT: refused with IllegalCommand outside CLOSED, with no draw and no I/O (R171). -/
def execConnect (s : State) : Result :=
  .next (if s.block.conn = .closed then openConnection s else raise .illegalCommand s)

/-- The flow filter: addressed to the local port, from the remote port (R176). -/
def matchesFlow (c : ConnectionFile) (r : ParsedPacket) : Bool := r.dport == c.localPort && r.sport == c.remotePort

/-- The ACK of the handshake: the new C_SEQ and C_ACK, flags {ACK}, no payload (R177). -/
def ackPacket (s : State) : List Byte := ctlPacket s.block.c s.block.c.seq s.block.c.ack flagAck []

/-- `C_ACK <- (p.seq + 1) mod 2^32; C_SEQ <- p.ack` (R177). -/
def acceptNumbers (r : ParsedPacket) (s : State) : State := putNumbers r.ack (r.seq + 1) s

/-- `accept(p)`: take the peer's numbers, build and send the ACK, and be ESTABLISHED (R177). -/
def accept (r : ParsedPacket) (s : State) : State :=
  match sendAnswer (acceptNumbers r s) with
  | .error => raise .transportError (transmit (ackPacket (acceptNumbers r s)) (acceptNumbers r s))
  | .ok => finish (leaveWait (putConn .established (transmit (ackPacket (acceptNumbers r s)) (acceptNumbers r s))))

/-- What a received byte sequence does besides being kept: a matching SYN/ACK is accepted, everything else is ignored (R175). -/
def judge (r : Option ParsedPacket) (s : State) : State :=
  match r with
  | none => s
  | some p => if matchesFlow s.block.c p && isSynAck p.flags then accept p s else s

/-- The receive step of the wait (R175). -/
def receiveStep (s : State) : State :=
  match recvAnswer s with
  | .timeout => afterRecv s
  | .error => raise .transportError (afterRecv s)
  | .bytes b => judge (parse b) (putParsed (parse b) (putIbuf b (afterRecv s)))

/-- The tick of the time base during the wait (R178). -/
def tickStep (s : State) : State :=
  if s.block.c.timer - 1 = 0 then raise .handshakeTimeout (putTimer (s.block.c.timer - 1) s)
  else putTimer (s.block.c.timer - 1) s

/-- The data segment of SEND: the current C_SEQ and C_ACK, flags {ACK, PSH}, payload `PBUF[0:PLEN]` (R181). -/
def dataPacket (s : State) : List Byte :=
  ctlPacket s.block.c s.block.c.seq s.block.c.ack (flagAck ||| flagPsh) s.payload

/-- `C_SEQ <- (C_SEQ + PLEN) mod 2^32` (R181). -/
def advanceSeq (s : State) : State :=
  putNumbers (s.block.c.seq + s.block.plen.setWidth 32) s.block.c.ack s

/-- SEND in ESTABLISHED with a payload that fits: build, send, and advance the sequence number if the send succeeded (R181). -/
def sendData (s : State) : State :=
  match sendAnswer s with
  | .error => raise .transportError (transmit (dataPacket s) s)
  | .ok => finish (advanceSeq (transmit (dataPacket s) s))

/-- SEND: NotConnected outside ESTABLISHED, then BadLength above 65495 payload bytes, both with no I/O (R181, spec/60_exceptions.md
R208). -/
def execSend (s : State) : Result :=
  .next (if s.block.conn ≠ .established then raise .notConnected s
    else if ipHdrBytes + tcpHdrBytes + s.block.plen.toNat > lengthFieldMax then raise .badLength s
    else sendData s)

/-- Every register at its reset value, and the contents of the buffers unspecified again (R184, spec/70_reset_and_hazards.md R230,
R232). -/
def resetBlock (s : State) : State := { block := Block.reset, env := { s.env with epoch := s.env.epoch + 1 } }

/-- INIT (R184). -/
def execInit (s : State) : Result := .next (resetBlock s)

end Sys2Proof.Machine
end

