-- ==== Sys2Proof/Machine/Dispatch.lean ====
section
/-! DEFINITION. The meaning of each command, one arm per constructor of Instr (spec/30_encoding.md R96). -/

namespace Sys2Proof.Machine

def exec (i : Instr) (s : State) : Host.Outcome State Fault Refusal :=
  match i with
  | .csum => Sys2Proof.Machine.execCsum s
  | .pseudo => Sys2Proof.Machine.execPseudo s
  | .encTcp => Sys2Proof.Machine.execEncTcp s
  | .decTcp => Sys2Proof.Machine.execDecTcp s
  | .encIp => Sys2Proof.Machine.execEncIp s
  | .decIp => Sys2Proof.Machine.execDecIp s
  | .buildTcp => Sys2Proof.Machine.execBuildTcp s
  | .buildIp => Sys2Proof.Machine.execBuildIp s
  | .buildPkt => Sys2Proof.Machine.execBuildPkt s
  | .parse => Sys2Proof.Machine.execParse s
  | .connect => Sys2Proof.Machine.execConnect s
  | .send => Sys2Proof.Machine.execSend s
  | .init => Sys2Proof.Machine.execInit s

end Sys2Proof.Machine
end

