-- ==== Sys2Proof/WellFormed.lean ====
section
/-! DEFINITION. Which command words are well formed. A constructor of `Instr` has no operand, so there is nothing to check in an
instruction itself; what can be ill formed is the 32-bit word that a host writes (spec/30_encoding.md R95, R97). This file is written
from R97's list of the illegal words; the decoder is written from R96's list of the legal ones. -/

namespace Sys2Proof

/-- The command codes R97 lists as reserved: 0x00, 0x07, 0x0C to 0x0F, 0x12 to 0x1E and 0x20 to 0xFF. -/
def codeReserved (code : Nat) : Bool :=
  code == 0x00 || code == 0x07 || (0x0C ≤ code && code ≤ 0x0F) || (0x12 ≤ code && code ≤ 0x1E) || 0x20 ≤ code

/-- Bits 31:8 of a command word, which must be 0 (R95). -/
def reservedField (w : Word) : BitVec 24 := w.extractLsb' 8 24

/-- A command word is well formed: bits 31:8 are 0 and its code is not reserved (R97). -/
def wordWellFormed (w : Word) : Bool :=
  reservedField w == 0 && !codeReserved (w.extractLsb' 0 8).toNat

end Sys2Proof
end

