-- ==== Sys2Proof/Decode.lean ====
section
/-! DEFINITION. The command decoder and, after it, the encoder (spec/30_encoding.md R95 to R97). -/

namespace Sys2Proof

/-- Why a word is no command. Both reasons end the command with IllegalCommand (spec/60_exceptions.md R205). -/
inductive DecodeError where
  /-- Some bit of 31:8 is not 0. -/
  | reservedBits
  /-- Bits 31:8 are 0 and the code is none of R96's. -/
  | unassignedCode
  deriving DecidableEq, Repr

/-- The command code, bits 7:0 of a command word (R95). -/
def commandCode (w : Word) : Byte := w.extractLsb' 0 8

/-- The command codes of R96. -/
def codeTable : List (Byte × Instr) :=
  [(0x01, .csum), (0x02, .pseudo), (0x03, .encTcp), (0x04, .decTcp), (0x05, .encIp), (0x06, .decIp), (0x08, .buildTcp),
   (0x09, .buildIp), (0x0A, .buildPkt), (0x0B, .parse), (0x10, .connect), (0x11, .send), (0x1F, .init)]

/-- Decoding a command word, in R95's order of tests. -/
def decode (w : Word) : Except DecodeError Instr :=
  if w.extractLsb' 8 24 ≠ 0 then .error .reservedBits
  else match codeTable.lookup (commandCode w) with
    | some i => .ok i
    | none => .error .unassignedCode

/-- The decoder's answer for a row of spec/opcode_table.json: the table numbers the bits as R95 numbers those of the command word, and
the bits above `nbits` are 0. A number of more than 32 bits is no command word. -/
def decodeTableWord (nbits w : Nat) : Option Instr :=
  if w % 2 ^ nbits < 2 ^ 32 then
    match decode (BitVec.ofNat 32 (w % 2 ^ nbits)) with
    | .ok i => some i
    | .error _ => none
  else none

/-- The word a host writes to CMD to start a command, from the `match` column of spec/opcode_table.json (R96). -/
def encode : Instr → Word
  | .csum => 0x00000001
  | .pseudo => 0x00000002
  | .encTcp => 0x00000003
  | .decTcp => 0x00000004
  | .encIp => 0x00000005
  | .decIp => 0x00000006
  | .buildTcp => 0x00000008
  | .buildIp => 0x00000009
  | .buildPkt => 0x0000000A
  | .parse => 0x0000000B
  | .connect => 0x00000010
  | .send => 0x00000011
  | .init => 0x0000001F

end Sys2Proof
end

