-- ==== Sys2Proof/Machine/HostPort.lean ====
section
/-! DEFINITION. What the environment can do to the block, between two steps: the labels of spec/44_handshake.md R186, and how a command
word is taken from CMD (spec/30_encoding.md R95). -/

namespace Sys2Proof.Machine

/-- The event is taken off the schedule. -/
def setEvents (rest : List Event) (s : State) : State := { s with env := { s.env with events := rest } }

/-- A host read of register number `n`: answered, without any effect on the block, also while busy (spec/20_memory.md R55,
spec/10_state.md R38). -/
def hostRead (n : Nat) (s : State) : State := observe (.read n (readNumber n s.block)) s

/-- A host read of a buffer byte: answered, without any effect on the block (R56). -/
def hostBufRead (b : Buf) (k : Nat) (s : State) : State := observe (.bufRead b k (s.readByte b k)) s

/-- A host write to a register other than CMD: dropped while busy (R38, R58). -/
def hostWrite (n : Nat) (v : Word) (s : State) : State :=
  if s.block.busy then s else { s with block := writeNumber n v s.block }

/-- One byte written to a buffer; OBUF is read-only to the host (R56). -/
def writeBuf (b : Buf) (k : Nat) (v : Byte) (blk : Block) : Block :=
  match b with
  | .ibuf => { blk with ibuf := Memory.write blk.ibuf k v }
  | .obuf => blk
  | .pbuf => { blk with pbuf := Memory.write blk.pbuf k v }

/-- A host write to a buffer byte: dropped while busy (R56, R38). -/
def hostBufWrite (b : Buf) (k : Nat) (v : Byte) (s : State) : State :=
  if s.block.busy then s else { s with block := writeBuf b k v s.block }

/-- What there is to do: run a command, or nothing beyond the outcome given. -/
inductive Work where
  | run (i : Instr) (s : State)
  | done (o : Result)

/-- A write of `w` to CMD: ignored while busy; IllegalCommand where `w` spells no command; else the command (R95, R22). -/
def issue (w : Word) (s : State) : Work :=
  if s.block.busy then .done (.next s)
  else match decode w with
    | .ok i => .run i s
    | .error _ => .done (.next (raise .illegalCommand s))

/-- One event (R186). A buffer index at or above `BUF_MAX` names no byte (R56); a poll and a tick act only during the wait
(R186, R211; notes/assumptions/5.md). -/
def takeEvent (e : Event) (s : State) : Work :=
  match e with
  | .hostRead n => .done (.next (hostRead n s))
  | .hostBufRead b k => .done (if k < bufMax then .next (hostBufRead b k s) else .fault (.noSuchBufferByte b k))
  | .hostWrite n v => if n = 0 then issue v s else .done (.next (hostWrite n v s))
  | .hostBufWrite b k v => .done (if k < bufMax then .next (hostBufWrite b k v s) else .fault (.noSuchBufferByte b k))
  | .rx => .done (.next (if s.block.busy then receiveStep s else s))
  | .tick => .done (.next (if s.block.busy then tickStep s else s))
  | .reset => .done (.next (resetBlock s))

/-- The next event of the schedule; with none left nothing happens, and the block waits (R187; notes/assumptions/2.md). -/
def nextWork (s : State) : Work :=
  match s.env.events with
  | [] => .done (.next s)
  | e :: rest => takeEvent e (setEvents rest s)

/-- The state in which the host is about to write `w` to CMD and the block is in IDLE. -/
def withCommand (w : Word) (s : State) : State := setEvents (.hostWrite 0 w :: s.env.events) (leaveWait s)

end Sys2Proof.Machine
end

