-- ==== Sys2Proof/Machine/Step.lean ====
section
/-! DEFINITION. One step of the machine: the next event of the schedule, and the command it starts, if any (spec/44_handshake.md
R186). -/

namespace Sys2Proof.Machine

/-- One step. -/
def step (s : State) : Host.Outcome State Fault Refusal :=
  match nextWork s with
  | .run i t => exec i t
  | .done o => o

/-- The state in which the very next step runs the command word `w`: the block stores no program, so the word stands as the host's next
write to CMD, and the block is in IDLE, where such a write starts a command (notes/assumptions/10.md). -/
def State.withFetchWord (s : State) (nbits w : Nat) : State := withCommand (BitVec.ofNat 32 (w % 2 ^ nbits)) s

end Sys2Proof.Machine
end

