-- ==== Sys2Proof/Machine/Script.lean ====
section
/-! DEFINITION. The host script notation as schedules of host accesses and as scripted answers of the environment (spec/30_encoding.md
R100, R101). `WAIT` reads STATUS until BUSY is 0, so its length depends on the run: it is given here as a number of reads. -/

namespace Sys2Proof.Machine

/-- `WR REG, value`. -/
def scriptWr (r : Reg) (v : Word) : List Event := [.hostWrite (regNumber r) v]

/-- `RD REG`. -/
def scriptRd (r : Reg) : List Event := [.hostRead (regNumber r)]

/-- `CMD MNEMONIC`. -/
def scriptCmd (i : Instr) : List Event := [.hostWrite 0 (encode i)]

/-- `n` turns of `WAIT`. -/
def scriptWait (n : Nat) : List Event := List.replicate n (.hostRead (regNumber .STATUS))

/-- `HostBufWrite(BUF, i, b_i)` for the bytes of `b`, from index `k` on. -/
def bufWrites (buf : Buf) : Nat → List Byte → List Event
  | _, [] => []
  | k, x :: r => .hostBufWrite buf k x :: bufWrites buf (k + 1) r

/-- `LDBUF IBUF, b0 b1 ...`: the bytes, then ILEN. -/
def scriptLdIbuf (b : List Byte) : List Event := bufWrites .ibuf 0 b ++ scriptWr .ILEN (BitVec.ofNat 32 b.length)

/-- `LDBUF PBUF, b0 b1 ...`: the bytes, then PLEN. -/
def scriptLdPbuf (b : List Byte) : List Event := bufWrites .pbuf 0 b ++ scriptWr .PLEN (BitVec.ofNat 32 b.length)

/-- `RDBUF BUF, n`. -/
def scriptRdbuf (buf : Buf) (n : Nat) : List Event := (List.range n).map (.hostBufRead buf ·)

/-- `CALL MNEMONIC` with `n` turns of its WAIT. -/
def scriptCall (i : Instr) (n : Nat) : List Event := scriptCmd i ++ scriptWait n ++ scriptRd .ERR

/-- `ENV draw32 = v`. -/
def envDraw32 (v : Word) (e : Environment) : Environment := { e with draws32 := e.draws32 ++ [v] }

/-- `ENV draw16 = v`. -/
def envDraw16 (v : Half) (e : Environment) : Environment := { e with draws16 := e.draws16 ++ [v] }

/-- `ENV send -> r`. -/
def envSend (r : SendAnswer) (e : Environment) : Environment := { e with sendAnswers := e.sendAnswers ++ [r] }

/-- `ENV recv -> r`: a poll with its answer. -/
def envRecv (r : RecvAnswer) (e : Environment) : Environment :=
  { e with recvAnswers := e.recvAnswers ++ [r], events := e.events ++ [.rx] }

/-- `ENV tick`. -/
def envTick (e : Environment) : Environment := { e with events := e.events ++ [.tick] }

/-- The host's next actions. -/
def envHost (actions : List Event) (e : Environment) : Environment := { e with events := e.events ++ actions }

end Sys2Proof.Machine
end

