-- ==== Sys2Proof/Safety.lean ====
section
/-! DEFINITION. What claims about the machine are stated with: the invariant of the block's state, and what a safe step is. -/

namespace Sys2Proof.Machine

/-- Every buffer is in canonical form. -/
abbrev Block.buffersWf (b : Block) : Prop :=
  Memory.wf b.ibuf = true ∧ Memory.wf b.obuf = true ∧ Memory.wf b.pbuf = true

/-- C_TIMER holds 0 to 5 (spec/10_state.md R34). -/
abbrev Block.timerBounded (b : Block) : Prop := b.c.timer.toNat ≤ 5

/-- While the block waits, it is in SYN_SENT and at least one time-unit is left (spec/44_handshake.md R174, R178). -/
abbrev Block.waitConsistent (b : Block) : Prop := b.busy = true → b.conn = .synSent ∧ 1 ≤ b.c.timer.toNat

/-- Where there is no packet, the other nine P registers are 0 (spec/10_state.md R32). -/
abbrev Block.parsedConsistent (b : Block) : Prop := b.p.valid = 0 → b.p = parsedFile none

/-- A header length in bytes is a multiple of 4 (spec/10_state.md R28, R32). -/
abbrev Block.lengthsConsistent (b : Block) : Prop :=
  b.rIphl.toNat % 4 = 0 ∧ b.rTcphl.toNat % 4 = 0 ∧ b.p.iphl.toNat % 4 = 0 ∧ b.p.tcphl.toNat % 4 = 0

/-- The payload of the last parsed packet lies inside IBUF (spec/43_packet_parser.md R156). -/
abbrev Block.payloadInBuffer (b : Block) : Prop := b.p.payoff.toNat + b.p.paylen.toNat ≤ bufMax

/-- The invariant of the block's state: it holds after reset and every step keeps it. -/
abbrev State.Inv (s : State) : Prop :=
  s.block.buffersWf ∧ s.block.timerBounded ∧ s.block.waitConsistent ∧ s.block.parsedConsistent ∧ s.block.lengthsConsistent
    ∧ s.block.payloadInBuffer

/-- A host event that spec/20_memory.md R56 admits: a buffer index lies below `BUF_MAX`. -/
def Event.admitted : Event → Bool
  | .hostBufRead _ k => decide (k < bufMax)
  | .hostBufWrite _ k _ => decide (k < bufMax)
  | .hostRead _ => true
  | .hostWrite _ _ => true
  | .rx => true
  | .tick => true
  | .reset => true

/-- A step is safe if it answers a next state. -/
def isNext (o : Result) : Bool :=
  match o with
  | .next _ => true
  | .fault _ => false
  | .refused _ => false

end Sys2Proof.Machine
end

