-- ==== Sys2Proof/Certificates/Slice0/Obligations.lean ====
section
/-! DEFINITION. What is claimed of the machine: the statements for the provers. -/

namespace Sys2Proof.Claims

open Sys2Proof.Machine

/-- Every byte of every buffer reads in `t` as it read in `s`. -/
def sameBytes (s t : State) : Prop := ∀ b k, t.readByte b k = s.readByte b k

/-- In `t` OBUF holds `out` at index 0 and OLEN its length, and every byte stored nowhere reads as in `s`: those of OBUF at and above
`len(out)`, and all of IBUF and PBUF. -/
def storesOutput (s t : State) (out : List Byte) : Prop :=
  t.block.olen.toNat = out.length
  ∧ (∀ k (h : k < out.length), t.readByte .obuf k = out[k])
  ∧ (∀ k, out.length ≤ k → t.readByte .obuf k = s.readByte .obuf k)
  ∧ (∀ b k, b ≠ .obuf → t.readByte b k = s.readByte b k)

/-- In `t` IBUF holds `got` at index 0 and ILEN its length, and IBUF at and above `len(got)` reads as in `s`. -/
def storesInput (s t : State) (got : List Byte) : Prop :=
  t.block.ilen.toNat = got.length
  ∧ (∀ k (h : k < got.length), t.readByte .ibuf k = got[k])
  ∧ (∀ k, got.length ≤ k → t.readByte .ibuf k = s.readByte .ibuf k)

/-- `s` with the code `e` in ERR, and nothing else changed. -/
def onlyErr (e : Err) (s : State) : State := { s with block := { s.block with err := e } }

/-- `s` with its first event taken off the schedule. -/
def popped (s : State) (rest : List Event) : State := { s with env := { s.env with events := rest } }

/-- The registers of R98's table that each command may write, with ERR, which every command writes. -/
def mayWrite : Instr → List Reg
  | .csum => [.R_CSUM, .ERR]
  | .pseudo => [.OLEN, .ERR]
  | .encTcp => [.OLEN, .ERR]
  | .decTcp => [.T_SPORT, .T_DPORT, .T_SEQ, .T_ACK, .T_DOFF, .T_FLAGS, .T_WIN, .T_CSUM, .T_URG, .R_TCPHL, .ERR]
  | .encIp => [.OLEN, .ERR]
  | .decIp => [.I_VER, .I_IHL, .I_TOS, .I_TOTLEN, .I_ID, .I_FRAG, .I_TTL, .I_PROTO, .I_CSUM, .I_SRC, .I_DST, .R_IPHL, .ERR]
  | .buildTcp => [.OLEN, .R_CSUM, .ERR]
  | .buildIp => [.OLEN, .ERR]
  | .buildPkt => [.OLEN, .R_CSUM, .ERR]
  | .parse => [.P_VALID, .P_SPORT, .P_DPORT, .P_SEQ, .P_ACK, .P_FLAGS, .P_IPHL, .P_TCPHL, .P_PAYOFF, .P_PAYLEN, .ERR]
  | .connect => [.C_LOCAL_PORT, .C_SEQ, .C_ACK, .C_TIMER, .STATUS, .OLEN, .ERR]
  | .send => [.OLEN, .C_SEQ, .ERR]
  | .init => registerTable.map (·.2.1)

/-- The codes with which each command can end (R207). -/
def endings : Instr → List Err
  | .csum | .pseudo | .encTcp | .encIp | .parse | .init => [.noError]
  | .decTcp | .decIp => [.noError, .malformedHeader]
  | .buildTcp | .buildIp | .buildPkt => [.noError, .badLength]
  | .connect => [.noError, .handshakeTimeout, .transportError, .illegalCommand]
  | .send => [.noError, .notConnected, .transportError, .badLength]

/-- One turn of the fold loop. -/
def foldOnce (sum : Nat) : Nat := sum / 65536 + sum % 65536

/-- The sum of the words of `b` in a 32-bit accumulator. -/
def sum32 (b : List Byte) : BitVec 32 := (words16 (padEven b)).foldl (fun acc x => acc + BitVec.ofNat 32 x) 0

/-- The TCP fields of the controller's packets, written out from R172. -/
def controllerFields (c : ConnectionFile) (seq ack : Word) (flags : BitVec 6) : TcpHeader :=
  { sport := c.localPort, dport := c.remotePort, seq := seq, ack := ack, doff := 5, flags := flags, win := c.window, csum := 0, urg := 0 }

/-- A packet of the controller (R172). -/
def controllerPacket (c : ConnectionFile) (seq ack : Word) (flags : BitVec 6) (payload : List Byte) : List Byte :=
  buildPacket (controllerFields c seq ack flags) payload c.localIp c.remoteIp c.ipId

/-- The connection file after CONNECT's draws (R171). -/
def drawnFile (s : State) : ConnectionFile :=
  { s.block.c with localPort := draw16 (afterDraw32 s), seq := draw32 s, ack := 0 }

/-- The SYN that CONNECT sends (R171, R173). -/
def synOf (s : State) : List Byte := controllerPacket (drawnFile s) (draw32 s) 0 0x02 []

/-- The transport's answer to CONNECT's send, which follows two draws. -/
def synAnswer (s : State) : SendAnswer := sendAnswer (afterDraw16 (afterDraw32 s))

/-- The connection file after an acceptance of `p` (R177). -/
def acceptedFile (c : ConnectionFile) (p : ParsedPacket) : ConnectionFile := { c with ack := p.seq + 1, seq := p.ack }

/-- `p` is the SYN/ACK awaited: its ports are the active pair, and SYN and ACK are both set (R176, R177). -/
def awaited (c : ConnectionFile) (p : ParsedPacket) : Prop :=
  p.dport = c.localPort ∧ p.sport = c.remotePort ∧ p.flags &&& 0x12 = 0x12

end Sys2Proof.Claims

open Sys2Proof Sys2Proof.Machine Sys2Proof.Claims

/-! ### Decoding and the step -/

/-- R96: each of the thirteen words decodes to its command. -/
def Obligations.CommandWordsDecode : Prop :=
  decode 0x00000001 = .ok .csum ∧ decode 0x00000002 = .ok .pseudo ∧ decode 0x00000003 = .ok .encTcp
  ∧ decode 0x00000004 = .ok .decTcp ∧ decode 0x00000005 = .ok .encIp ∧ decode 0x00000006 = .ok .decIp
  ∧ decode 0x00000008 = .ok .buildTcp ∧ decode 0x00000009 = .ok .buildIp ∧ decode 0x0000000A = .ok .buildPkt
  ∧ decode 0x0000000B = .ok .parse ∧ decode 0x00000010 = .ok .connect ∧ decode 0x00000011 = .ok .send
  ∧ decode 0x0000001F = .ok .init

/-- R96: over all 2^32 words, a word decodes to a command exactly if it is the command's row of the code table, its mask being all
ones. -/
def Obligations.DecodeExactlyTheEncodedWords : Prop :=
  (∀ (w : Word) (i : Instr), decode w = .ok i ↔ w = encode i)
  ∧ ∀ (w : Word) (i : Instr), decode w = .ok i ↔
      (w.toNat, i) ∈ [(0x01, Instr.csum), (0x02, .pseudo), (0x03, .encTcp), (0x04, .decTcp), (0x05, .encIp), (0x06, .decIp),
        (0x08, .buildTcp), (0x09, .buildIp), (0x0A, .buildPkt), (0x0B, .parse), (0x10, .connect), (0x11, .send), (0x1F, .init)]

/-- R97: a word with a reserved code or a bit of 31:8 set decodes to no command, every other word to one; written to CMD in IDLE it ends
with IllegalCommand and changes nothing but ERR. -/
def Obligations.IllegalWordsChangeOnlyErr : Prop :=
  ∀ w : Word,
    ((codeReserved (w.toNat % 256) = true ∨ w.toNat / 256 ≠ 0) ↔ ∃ e, decode w = .error e)
    ∧ ∀ (s : State) (rest : List Event), s.env.events = .hostWrite 0 w :: rest → s.block.busy = false →
        (codeReserved (w.toNat % 256) = true ∨ w.toNat / 256 ≠ 0) →
        step s = .next (onlyErr .illegalCommand (popped s rest))

/-- R95, R186: a step whose next event is a write to CMD in IDLE runs the command the word decodes to, on the state with the event taken;
the same for the state the host's probe makes. A step with no event left changes nothing (notes/assumptions/2.md, DESIGN CHOICE). -/
def Obligations.StepRunsTheDecodedCommand : Prop :=
  (∀ (s : State) (w : Word) (i : Instr) (rest : List Event),
    s.env.events = .hostWrite 0 w :: rest → s.block.busy = false → decode w = .ok i → step s = exec i (popped s rest))
  ∧ (∀ (s : State) (i : Instr),
      step (s.withFetchWord 32 (encode i).toNat) = exec i { s with block := { s.block with busy := false } })
  ∧ (∀ s : State, s.env.events = [] → step s = .next s)

/-! ### The checksum engine -/

/-- R116: the four facts of the checksum function. -/
def Obligations.ChecksumFacts : Prop :=
  checksum [] = 0xFFFF
  ∧ (∀ b n, checksum (b ++ List.replicate n 0) = checksum b)
  ∧ (∀ b, foldedSum b ≤ 0xFFFF ∧ (foldedSum b = 0 ↔ ∀ x ∈ b, x = 0)
      ∧ (checksum b = 0xFFFF ↔ ∀ x ∈ b, x = 0) ∧ (checksum b = 0 ↔ foldedSum b = 0xFFFF))
  ∧ (∀ b b', (words16 (padEven b)).Perm (words16 (padEven b')) → checksum b = checksum b')

/-- R115: for every input a command can form, the sum fits 32 bits, a 32-bit accumulator gives the same sum, and two folds end the loop. -/
def Obligations.ChecksumAccumulatorFits : Prop :=
  ∀ b : List Byte, b.length ≤ 12 + 65535 →
    rawSum b ≤ 0x80057FFA ∧ (sum32 b).toNat = rawSum b
    ∧ foldOnce (rawSum b) ≤ 0x18004
    ∧ (foldOnce (rawSum b) / 65536 ≠ 0 → foldOnce (foldOnce (rawSum b)) ≤ 0x8005)
    ∧ foldCarries 2 (rawSum b) = foldedSum b

/-- R114: with the checksum in a field at an even index, the whole sequence folds to 0xFFFF and its own checksum is 0; so for a TCP
header behind any pseudo-header, whose field is at the even index 28, and for an IPv4 header alone. -/
def Obligations.ChecksumVerifiesItself : Prop :=
  (∀ before after : List Byte, before.length % 2 = 0 →
    foldedSum (before ++ be16 (checksum (before ++ be16 0 ++ after)) ++ after) = 0xFFFF
    ∧ checksum (before ++ be16 (checksum (before ++ be16 0 ++ after)) ++ after) = 0)
  ∧ (∀ (f : TcpHeader) (d : List Byte) (src dst : Word) (proto : Byte) (n : Half),
      let p := pseudoHeader src dst proto n
      let c := checksum (p ++ (encodeTcp { f with csum := 0 } ++ d))
      ((p ++ (encodeTcp { f with csum := c } ++ d)).drop 28).take 2 = be16 c
      ∧ foldedSum (p ++ (encodeTcp { f with csum := c } ++ d)) = 0xFFFF
      ∧ checksum (p ++ (encodeTcp { f with csum := c } ++ d)) = 0)
  ∧ (∀ g : IpHeader,
      let h := encodeIp { g with csum := checksum (encodeIp { g with csum := 0 }) }
      foldedSum h = 0xFFFF ∧ checksum h = 0)

/-- R148: the sum over the pseudo-header and any built segment folds to 0xFFFF. -/
def Obligations.BuiltSegmentsVerify : Prop :=
  ∀ (f : TcpHeader) (d : List Byte) (src dst : Word), 20 + d.length ≤ 65535 →
    foldedSum (pseudoHeader src dst 6 (BitVec.ofNat 16 (buildSegment f d src dst).length) ++ buildSegment f d src dst) = 0xFFFF

/-- R111: CSUM. -/
def Obligations.CsumStoresTheChecksum : Prop :=
  encode .csum = 0x01
  ∧ ∀ s : State,
      exec .csum s = .next { s with block := { s.block with rCsum := checksum (s.slice .ibuf 0 s.block.ilen.toNat), err := .noError } }
      ∧ (s.block.ilen = 0 → checksum (s.slice .ibuf 0 s.block.ilen.toNat) = 0xFFFF)

/-- R112, R113: PSEUDO. -/
def Obligations.PseudoStoresThePseudoHeader : Prop :=
  encode .pseudo = 0x02
  ∧ ∀ s : State, ∃ t, exec .pseudo s = .next t
      ∧ storesOutput s t
          (be32 s.block.a.srcIp ++ be32 s.block.a.dstIp ++ [0x00] ++ [s.block.a.proto] ++ be16 s.block.a.segLen)
      ∧ t.block.olen = 12
      ∧ t = { s with block := { s.block with obuf := t.block.obuf, olen := t.block.olen, err := .noError } }

/-! ### The header codec -/

/-- R80: the layout of an encoded TCP header, byte by byte and flag by flag. -/
def Obligations.TcpHeaderLayout : Prop :=
  ∀ f : TcpHeader, (encodeTcp f).length = 20
    ∧ (byteAt (encodeTcp f) 0).toNat = f.sport.toNat / 256 ∧ (byteAt (encodeTcp f) 1).toNat = f.sport.toNat % 256
    ∧ (byteAt (encodeTcp f) 2).toNat = f.dport.toNat / 256 ∧ (byteAt (encodeTcp f) 3).toNat = f.dport.toNat % 256
    ∧ beNumber (((encodeTcp f).drop 4).take 4) = f.seq.toNat
    ∧ beNumber (((encodeTcp f).drop 8).take 4) = f.ack.toNat
    ∧ (byteAt (encodeTcp f) 12).toNat = f.doff.toNat * 16
    ∧ (byteAt (encodeTcp f) 13).toNat = f.flags.toNat
    ∧ (∀ k, k < 8 → (byteAt (encodeTcp f) 13).getLsbD k = (decide (k < 6) && f.flags.getLsbD k))
    ∧ beNumber (((encodeTcp f).drop 14).take 2) = f.win.toNat
    ∧ beNumber (((encodeTcp f).drop 16).take 2) = f.csum.toNat
    ∧ beNumber (((encodeTcp f).drop 18).take 2) = f.urg.toNat

/-- R84: the layout of an encoded IPv4 header. -/
def Obligations.IpHeaderLayout : Prop :=
  ∀ g : IpHeader, (encodeIp g).length = 20
    ∧ (byteAt (encodeIp g) 0).toNat = g.ver.toNat * 16 + g.ihl.toNat
    ∧ byteAt (encodeIp g) 1 = g.tos
    ∧ beNumber (((encodeIp g).drop 2).take 2) = g.totlen.toNat
    ∧ beNumber (((encodeIp g).drop 4).take 2) = g.id.toNat
    ∧ beNumber (((encodeIp g).drop 6).take 2) = g.frag.toNat
    ∧ byteAt (encodeIp g) 8 = g.ttl
    ∧ byteAt (encodeIp g) 9 = g.proto
    ∧ beNumber (((encodeIp g).drop 10).take 2) = g.csum.toNat
    ∧ beNumber (((encodeIp g).drop 12).take 4) = g.src.toNat
    ∧ beNumber (((encodeIp g).drop 16).take 4) = g.dst.toNat

/-- R129: both codecs round-trip, in both directions, for every field record and every byte sequence of at least 20 bytes. -/
def Obligations.HeaderCodecsRoundTrip : Prop :=
  (∀ f : TcpHeader, decodeTcp (encodeTcp f) = some f)
  ∧ (∀ g : IpHeader, decodeIp (encodeIp g) = some g)
  ∧ (∀ b : List Byte, 20 ≤ b.length → ∃ f, decodeTcp b = some f
      ∧ (encodeTcp f = b.take 20 ↔ byteAt b 12 &&& 0x0F = 0 ∧ byteAt b 13 &&& 0xC0 = 0))
  ∧ (∀ b : List Byte, 20 ≤ b.length → ∃ g, decodeIp b = some g ∧ encodeIp g = b.take 20)

/-- R83: the reserved bits of a TCP header are written 0, and a decoder does not see them: clearing them changes neither the decoded
fields nor whether decoding succeeds, and encoding again gives the cleared bytes. -/
def Obligations.ReservedTcpBitsIgnored : Prop :=
  (∀ f : TcpHeader, byteAt (encodeTcp f) 12 &&& 0x0F = 0 ∧ byteAt (encodeTcp f) 13 &&& 0xC0 = 0)
  ∧ ∀ b : List Byte,
      decodeTcp ((b.set 12 (byteAt b 12 &&& 0xF0)).set 13 (byteAt b 13 &&& 0x3F)) = decodeTcp b
      ∧ ∀ f, decodeTcp b = some f → encodeTcp f = ((b.set 12 (byteAt b 12 &&& 0xF0)).set 13 (byteAt b 13 &&& 0x3F)).take 20

/-- R121: ENC_TCP. -/
def Obligations.EncTcpStoresTheHeader : Prop :=
  encode .encTcp = 0x03
  ∧ ∀ s : State, ∃ t, exec .encTcp s = .next t
      ∧ storesOutput s t (encodeTcp s.block.t) ∧ t.block.olen = 20
      ∧ t = { s with block := { s.block with obuf := t.block.obuf, olen := t.block.olen, err := .noError } }

/-- R123: DEC_TCP, with every T register written from the bytes R122 names, and MalformedHeader below 20 bytes. -/
def Obligations.DecTcpLoadsTheFields : Prop :=
  encode .decTcp = 0x04
  ∧ ∀ s : State,
      (s.block.ilen.toNat < 20 →
        exec .decTcp s = .next { s with block := { s.block with err := .malformedHeader, busy := false } })
      ∧ (20 ≤ s.block.ilen.toNat → ∃ t, exec .decTcp s = .next t
          ∧ t.block.t.sport.toNat = s.memRead .ibuf 0 2 ∧ t.block.t.dport.toNat = s.memRead .ibuf 2 2
          ∧ t.block.t.seq.toNat = s.memRead .ibuf 4 4 ∧ t.block.t.ack.toNat = s.memRead .ibuf 8 4
          ∧ t.block.t.doff.toNat = (s.readByte .ibuf 12).toNat / 16
          ∧ t.block.t.flags.toNat = (s.readByte .ibuf 13).toNat % 64
          ∧ t.block.t.win.toNat = s.memRead .ibuf 14 2 ∧ t.block.t.csum.toNat = s.memRead .ibuf 16 2
          ∧ t.block.t.urg.toNat = s.memRead .ibuf 18 2
          ∧ t.block.rTcphl.toNat = (s.readByte .ibuf 12).toNat / 16 * 4
          ∧ t = { s with block := { s.block with t := t.block.t, rTcphl := t.block.rTcphl, err := .noError } })

/-- R125: ENC_IP. -/
def Obligations.EncIpStoresTheHeader : Prop :=
  encode .encIp = 0x05
  ∧ ∀ s : State, ∃ t, exec .encIp s = .next t
      ∧ storesOutput s t (encodeIp s.block.i) ∧ t.block.olen = 20
      ∧ t = { s with block := { s.block with obuf := t.block.obuf, olen := t.block.olen, err := .noError } }

/-- R128: DEC_IP, with every I register written from the bytes R127 names, and MalformedHeader below 20 bytes. -/
def Obligations.DecIpLoadsTheFields : Prop :=
  encode .decIp = 0x06
  ∧ ∀ s : State,
      (s.block.ilen.toNat < 20 →
        exec .decIp s = .next { s with block := { s.block with err := .malformedHeader, busy := false } })
      ∧ (20 ≤ s.block.ilen.toNat → ∃ t, exec .decIp s = .next t
          ∧ t.block.i.ver.toNat = (s.readByte .ibuf 0).toNat / 16 ∧ t.block.i.ihl.toNat = (s.readByte .ibuf 0).toNat % 16
          ∧ t.block.i.tos = s.readByte .ibuf 1 ∧ t.block.i.totlen.toNat = s.memRead .ibuf 2 2
          ∧ t.block.i.id.toNat = s.memRead .ibuf 4 2 ∧ t.block.i.frag.toNat = s.memRead .ibuf 6 2
          ∧ t.block.i.ttl = s.readByte .ibuf 8 ∧ t.block.i.proto = s.readByte .ibuf 9
          ∧ t.block.i.csum.toNat = s.memRead .ibuf 10 2
          ∧ t.block.i.src.toNat = s.memRead .ibuf 12 4 ∧ t.block.i.dst.toNat = s.memRead .ibuf 16 4
          ∧ t.block.rIphl.toNat = (s.readByte .ibuf 0).toNat % 16 * 4
          ∧ t = { s with block := { s.block with i := t.block.i, rIphl := t.block.rIphl, err := .noError } })

/-! ### The packet builder -/

/-- R141: BUILD_TCP, and BadLength above 65515 payload bytes. -/
def Obligations.BuildTcpStoresTheSegment : Prop :=
  encode .buildTcp = 0x08
  ∧ ∀ s : State,
      (65515 < s.block.plen.toNat →
        exec .buildTcp s = .next { s with block := { s.block with err := .badLength, busy := false } })
      ∧ (s.block.plen.toNat ≤ 65515 → ∃ t, exec .buildTcp s = .next t
          ∧ storesOutput s t
              (buildSegment s.block.t (s.slice .pbuf 0 s.block.plen.toNat) s.block.a.srcIp s.block.a.dstIp)
          ∧ t.block.olen.toNat = 20 + s.block.plen.toNat
          ∧ t.block.rCsum = segmentChecksum s.block.t (s.slice .pbuf 0 s.block.plen.toNat) s.block.a.srcIp s.block.a.dstIp
          ∧ t.block.rCsum.toNat = t.memRead .obuf 16 2
          ∧ t = { s with block :=
                    { s.block with obuf := t.block.obuf, olen := t.block.olen, rCsum := t.block.rCsum, err := .noError } })

/-- R140: the two passes of `build`: what the checksum is over, and what the segment is; no other T field than T_CSUM is ignored. -/
def Obligations.BuildIsTwoPass : Prop :=
  ∀ (f : TcpHeader) (d : List Byte) (src dst : Word), 20 + d.length ≤ 65535 →
    let h0 := encodeTcp { f with csum := 0 }
    let c := checksum (be32 src ++ be32 dst ++ [0x00, 0x06] ++ be16 (BitVec.ofNat 16 (20 + d.length)) ++ (h0 ++ d))
    buildSegment f d src dst = encodeTcp { f with csum := c } ++ d
    ∧ (buildSegment f d src dst).length = 20 + d.length
    ∧ (∀ k, k ≠ 16 → k ≠ 17 → (buildSegment f d src dst)[k]? = (h0 ++ d)[k]?)
    ∧ (∀ c', buildSegment { f with csum := c' } d src dst = buildSegment f d src dst)

/-- R142, R143: BUILD_IP, and BadLength above 65515. -/
def Obligations.BuildIpStoresTheHeader : Prop :=
  encode .buildIp = 0x09
  ∧ ∀ s : State,
      (65515 < s.block.a.segLen.toNat →
        exec .buildIp s = .next { s with block := { s.block with err := .badLength, busy := false } })
      ∧ (s.block.a.segLen.toNat ≤ 65515 → ∃ t, exec .buildIp s = .next t
          ∧ storesOutput s t ([0x45, 0x00] ++ be16 (s.block.a.segLen + 20) ++ be16 s.block.a.ipId
              ++ [0x00, 0x00, 0x40, 0x06, 0x00, 0x00] ++ be32 s.block.a.srcIp ++ be32 s.block.a.dstIp)
          ∧ (s.block.a.segLen + 20).toNat = 20 + s.block.a.segLen.toNat
          ∧ t.block.olen = 20
          ∧ t = { s with block := { s.block with obuf := t.block.obuf, olen := t.block.olen, err := .noError } })

/-- R144, R145: BUILD_PKT, and BadLength above 65495 payload bytes. -/
def Obligations.BuildPktStoresThePacket : Prop :=
  encode .buildPkt = 0x0A
  ∧ ∀ s : State,
      (65495 < s.block.plen.toNat →
        exec .buildPkt s = .next { s with block := { s.block with err := .badLength, busy := false } })
      ∧ (s.block.plen.toNat ≤ 65495 → ∃ t, exec .buildPkt s = .next t
          ∧ storesOutput s t
              (([0x45, 0x00] ++ be16 (s.block.plen + 40) ++ be16 s.block.a.ipId
                ++ [0x00, 0x00, 0x40, 0x06, 0x00, 0x00] ++ be32 s.block.a.srcIp ++ be32 s.block.a.dstIp)
                ++ buildSegment s.block.t (s.slice .pbuf 0 s.block.plen.toNat) s.block.a.srcIp s.block.a.dstIp)
          ∧ (s.block.plen + 40).toNat = 40 + s.block.plen.toNat
          ∧ t.block.olen.toNat = 40 + s.block.plen.toNat
          ∧ t.block.rCsum = segmentChecksum s.block.t (s.slice .pbuf 0 s.block.plen.toNat) s.block.a.srcIp s.block.a.dstIp
          ∧ t = { s with block :=
                    { s.block with obuf := t.block.obuf, olen := t.block.olen, rCsum := t.block.rCsum, err := .noError } })

/-! ### The packet parser -/

/-- R155, R157, R213: when there is no packet, and the extent of the payload when there is one. -/
def Obligations.ParseFindsAPacketOrNone : Prop :=
  ∀ raw : List Byte,
    (parse raw = none ↔ raw.length < 1 ∨ raw.length < ((byteAt raw 0).toNat % 16) * 4 + 20)
    ∧ ∀ r, parse raw = some r →
        r.iphl = ((byteAt raw 0).toNat % 16) * 4
        ∧ r.tcphl = ((byteAt raw (r.iphl + 12)).toNat / 16) * 4
        ∧ r.sport = be16At raw r.iphl ∧ r.dport = be16At raw (r.iphl + 2)
        ∧ r.seq = be32At raw (r.iphl + 4) ∧ r.ack = be32At raw (r.iphl + 8)
        ∧ r.flags.toNat = (byteAt raw (r.iphl + 13)).toNat % 64
        ∧ r.payoff = min (r.iphl + r.tcphl) raw.length
        ∧ r.payoff + r.paylen = raw.length
        ∧ raw.drop r.payoff = raw.drop (r.iphl + r.tcphl)

/-- R158: a parse reads byte 0's low nibble and, of the 20 bytes after the IPv4 header, not even the window, the checksum and the urgent
pointer: two byte sequences of one length that agree there parse alike. -/
def Obligations.ParseReadsNothingElse : Prop :=
  ∀ raw raw' : List Byte, raw.length = raw'.length →
    (byteAt raw 0).toNat % 16 = (byteAt raw' 0).toNat % 16 →
    (∀ k, k < 14 → byteAt raw ((byteAt raw 0).toNat % 16 * 4 + k) = byteAt raw' ((byteAt raw 0).toNat % 16 * 4 + k)) →
    parse raw = parse raw'

/-- R159: parsing a built packet recovers ports, numbers and flags and, with data offset 5, the payload; with another data offset the
payload found is what R157 says, and not the payload supplied (a data offset above 5 leaves an empty payload empty). -/
def Obligations.ParseInvertsBuild : Prop :=
  ∀ (f : TcpHeader) (d : List Byte) (src dst : Word) (id : Half), 40 + d.length ≤ 65535 →
    ∃ r, parse (buildPacket f d src dst id) = some r
      ∧ r.sport = f.sport ∧ r.dport = f.dport ∧ r.seq = f.seq ∧ r.ack = f.ack ∧ r.flags = f.flags ∧ r.iphl = 20
      ∧ (f.doff = 5 → r.tcphl = 20 ∧ r.payoff = 40 ∧ r.paylen = d.length
          ∧ ((buildPacket f d src dst id).drop r.payoff).take r.paylen = d)
      ∧ (f.doff ≠ 5 → r.tcphl = f.doff.toNat * 4 ∧ r.payoff = min (20 + f.doff.toNat * 4) (40 + d.length)
          ∧ r.paylen = 40 + d.length - r.payoff
          ∧ (f.doff.toNat < 5 ∨ d ≠ [] → ((buildPacket f d src dst id).drop r.payoff).take r.paylen ≠ d))

/-- R160: behind an IPv4 header of 24 bytes the TCP header is read at byte 24, and the option bytes are skipped unread. -/
def Obligations.ParseSkipsIpOptions : Prop :=
  ∀ (hdr opts d : List Byte) (f : TcpHeader), hdr.length = 20 → byteAt hdr 0 = 0x46 → opts.length = 4 → f.doff = 5 →
    parse (hdr ++ opts ++ encodeTcp f ++ d) = some
      { sport := f.sport, dport := f.dport, seq := f.seq, ack := f.ack, flags := f.flags, iphl := 24, tcphl := 20, payoff := 44,
        paylen := d.length }

/-- R156: PARSE. -/
def Obligations.ParseWritesThePFile : Prop :=
  encode .parse = 0x0B
  ∧ ∀ s : State, ∃ t, exec .parse s = .next t
      ∧ (parse (s.slice .ibuf 0 s.block.ilen.toNat) = none → t.block.p =
          { valid := 0, sport := 0, dport := 0, seq := 0, ack := 0, flags := 0, iphl := 0, tcphl := 0, payoff := 0, paylen := 0 })
      ∧ (∀ r, parse (s.slice .ibuf 0 s.block.ilen.toNat) = some r →
          t.block.p.valid = 1 ∧ t.block.p.sport = r.sport ∧ t.block.p.dport = r.dport ∧ t.block.p.seq = r.seq
          ∧ t.block.p.ack = r.ack ∧ t.block.p.flags = r.flags ∧ t.block.p.iphl.toNat = r.iphl ∧ t.block.p.tcphl.toNat = r.tcphl
          ∧ t.block.p.payoff.toNat = r.payoff ∧ t.block.p.paylen.toNat = r.paylen
          ∧ t.block.p.payoff.toNat + t.block.p.paylen.toNat = s.block.ilen.toNat)
      ∧ t = { s with block := { s.block with p := t.block.p, err := .noError } }

/-! ### The handshake controller -/

/-- R171, R173: CONNECT's first step. -/
def Obligations.ConnectSendsTheSyn : Prop :=
  encode .connect = 0x10
  ∧ ∀ s : State,
      (s.block.conn ≠ .closed →
        exec .connect s = .next { s with block := { s.block with err := .illegalCommand, busy := false } })
      ∧ (s.block.conn = .closed → ∃ t, exec .connect s = .next t
          ∧ storesOutput s t (synOf s)
          ∧ t.env = (afterSend (synOf s) s.block.c.remoteIp (afterDraw16 (afterDraw32 s))).env
          ∧ t.env.trace = s.env.trace ++ [.drew32 (draw32 s), .drew16 (draw16 (afterDraw32 s)),
              .sent (synOf s) s.block.c.remoteIp (synAnswer s)]
          ∧ (synAnswer s = .ok → t.block =
              { s.block with c := { drawnFile s with timer := 5 }, conn := .synSent, busy := true, obuf := t.block.obuf, olen := 40 })
          ∧ (synAnswer s = .error → t.block =
              { s.block with c := drawnFile s, err := .transportError, busy := false, obuf := t.block.obuf, olen := 40 }))

/-- R175, R176: the receive step: the four forms of answer, and what is ignored. -/
def Obligations.ReceiveStepOfTheWait : Prop :=
  ∀ (s : State) (rest : List Event), s.env.events = .rx :: rest → s.block.busy = true →
    (recvAnswer s = .timeout → step s = .next (afterRecv (popped s rest)))
    ∧ (recvAnswer s = .error → ∃ t, step s = .next t ∧ t.env = (afterRecv (popped s rest)).env
        ∧ t.block = { s.block with err := .transportError, busy := false })
    ∧ (∀ got, recvAnswer s = .bytes got → (∀ p, parse got = some p → ¬ awaited s.block.c p) → ∃ t, step s = .next t
        ∧ storesInput s t got ∧ (∀ b k, b ≠ .ibuf → t.readByte b k = s.readByte b k)
        ∧ t.env = (afterRecv (popped s rest)).env
        ∧ t.block = { s.block with ibuf := t.block.ibuf, ilen := t.block.ilen, p := parsedFile (parse got) })
    ∧ (∀ got p, recvAnswer s = .bytes got → parse got = some p → awaited s.block.c p → ∃ t, step s = .next t
        ∧ storesInput s t got ∧ t.block.p = parsedFile (some p) ∧ t.block.c = acceptedFile s.block.c p)

/-- R177: acceptance: the numbers taken from the peer, the ACK sent, and the state after each answer of the transport. -/
def Obligations.AcceptanceSendsTheAck : Prop :=
  ∀ (s : State) (rest : List Event) (got : List Byte) (p : ParsedPacket),
    s.env.events = .rx :: rest → s.block.busy = true → recvAnswer s = .bytes got → parse got = some p → awaited s.block.c p →
    let c := acceptedFile s.block.c p
    let pkt := controllerPacket c p.ack (p.seq + 1) 0x10 []
    let answer := sendAnswer (afterRecv s)
    c.ack.toNat = (p.seq.toNat + 1) % 2 ^ 32
    ∧ ∃ t, step s = .next t
      ∧ t.block.olen = 40 ∧ (∀ k (h : k < pkt.length), t.readByte .obuf k = pkt[k])
      ∧ (∀ k, 40 ≤ k → t.readByte .obuf k = s.readByte .obuf k) ∧ (∀ k, t.readByte .pbuf k = s.readByte .pbuf k)
      ∧ t.env.trace = s.env.trace ++ [.polled 65535 (.bytes got), .sent pkt s.block.c.remoteIp answer]
      ∧ (answer = .ok → t.block =
          { s.block with
            c := c, conn := .established, busy := false, err := .noError, obuf := t.block.obuf, olen := 40,
            ibuf := t.block.ibuf, ilen := t.block.ilen, p := parsedFile (some p) })
      ∧ (answer = .error → t.block =
          { s.block with
            c := c, busy := false, err := .transportError, obuf := t.block.obuf, olen := 40,
            ibuf := t.block.ibuf, ilen := t.block.ilen, p := parsedFile (some p) })

/-- R178: the tick, during the wait and outside it. -/
def Obligations.TickLowersTheTimer : Prop :=
  ∀ (s : State) (rest : List Event), s.env.events = .tick :: rest →
    (s.block.busy = false → step s = .next (popped s rest))
    ∧ (s.block.busy = true → 1 ≤ s.block.c.timer.toNat → ∃ t, step s = .next t
        ∧ t.env = (popped s rest).env
        ∧ t.block.c.timer.toNat = s.block.c.timer.toNat - 1
        ∧ t.block =
          { s.block with
            c := { s.block.c with timer := t.block.c.timer },
            err := if s.block.c.timer.toNat = 1 then .handshakeTimeout else s.block.err,
            busy := if s.block.c.timer.toNat = 1 then false else true })

/-- R181: SEND. -/
def Obligations.SendFramesTheData : Prop :=
  encode .send = 0x11
  ∧ ∀ s : State,
      (s.block.conn ≠ .established →
        exec .send s = .next { s with block := { s.block with err := .notConnected, busy := false } })
      ∧ (s.block.conn = .established → 65495 < s.block.plen.toNat →
          exec .send s = .next { s with block := { s.block with err := .badLength, busy := false } })
      ∧ (s.block.conn = .established → s.block.plen.toNat ≤ 65495 →
          let pkt := controllerPacket s.block.c s.block.c.seq s.block.c.ack 0x18 (s.slice .pbuf 0 s.block.plen.toNat)
          ∃ t, exec .send s = .next t
            ∧ storesOutput s t pkt ∧ t.block.olen.toNat = 40 + s.block.plen.toNat
            ∧ t.env = (afterSend pkt s.block.c.remoteIp s).env
            ∧ t.env.trace = s.env.trace ++ [.sent pkt s.block.c.remoteIp (sendAnswer s)]
            ∧ (sendAnswer s = .ok →
                t.block.c.seq.toNat = (s.block.c.seq.toNat + s.block.plen.toNat) % 2 ^ 32
                ∧ t.block =
                  { s.block with
                    c := { s.block.c with seq := t.block.c.seq }, err := .noError, obuf := t.block.obuf, olen := t.block.olen })
            ∧ (sendAnswer s = .error →
                t.block = { s.block with err := .transportError, busy := false, obuf := t.block.obuf, olen := t.block.olen }))

/-- R184, R232: INIT, in every state: the block is in the reset state, no buffer byte holds a value any longer, and nothing is sent;
while busy its word is dropped like every other. -/
def Obligations.InitGivesTheResetState : Prop :=
  encode .init = 0x1F
  ∧ (∀ s : State, ∃ t, exec .init s = .next t ∧ t.block = State.reset.block
      ∧ (∀ b k, Memory.read (t.block.buf b) k = none) ∧ t.env = { s.env with epoch := s.env.epoch + 1 })
  ∧ ∀ (s : State) (rest : List Event), s.env.events = .hostWrite 0 (encode .init) :: rest → s.block.busy = true →
      step s = .next (popped s rest)

/-- R203: a SEND outside ESTABLISHED performs no I/O and writes no buffer, whatever the payload; and no command but SEND, and in no
other state, ends with NotConnected (a CONNECT that goes on to wait has not ended, and leaves ERR as it was). -/
def Obligations.NotConnectedMeansNoIo : Prop :=
  (∀ (s t : State), s.block.conn ≠ .established → exec .send s = .next t →
    t.block.err = .notConnected ∧ t.env = s.env ∧ sameBytes s t ∧ t.block.olen = s.block.olen ∧ t.block.c = s.block.c
    ∧ t.block.conn = s.block.conn)
  ∧ ∀ (i : Instr) (s t : State), s.block.err ≠ .notConnected → exec i s = .next t → t.block.err = .notConnected →
      i = .send ∧ s.block.conn ≠ .established

/-! ### The host's side -/

/-- R39: the value of every register after reset; no buffer byte holds a value of the model's. -/
def Obligations.ResetValues : Prop :=
  (∀ r : Reg, readReg r State.reset.block =
    if r = .A_PROTO then 6 else if r = .T_DOFF then 5 else if r = .I_VER then 4 else if r = .I_IHL then 5
    else if r = .I_TTL then 64 else if r = .I_PROTO then 6 else 0)
  ∧ State.reset.block.busy = false ∧ State.reset.block.conn = .closed ∧ State.reset.block.err = .noError
  ∧ ∀ b k, Memory.read (State.reset.block.buf b) k = none

/-- R230, R231: the reset input, at any time: the block is in the reset state, nothing is sent, and what was sent stays sent. -/
def Obligations.ResetAtAnyTime : Prop :=
  ∀ (s : State) (rest : List Event), s.env.events = .reset :: rest →
    ∃ t, step s = .next t ∧ t.block = State.reset.block ∧ t.env.trace = s.env.trace ∧ t.env.events = rest

/-- R23, R200: STATUS is BUSY in bit 0 and the code of the ConnectionState in bits 2:1; ERR is the code of the error. -/
def Obligations.StatusAndErrAreTheCodes : Prop :=
  ∀ b : Block,
    (readReg .STATUS b).toNat =
      (match b.conn with | .closed => 0 | .synSent => 1 | .established => 2) * 2 + (if b.busy then 1 else 0)
    ∧ (readReg .ERR b).toNat =
      (match b.err with
        | .noError => 0 | .malformedHeader => 1 | .handshakeTimeout => 2 | .notConnected => 3 | .transportError => 4
        | .illegalCommand => 5 | .badLength => 6)

/-- R38: while busy every host write is dropped, a command included, and every host read is answered with the current value; in IDLE a
host write takes effect at once. -/
def Obligations.HostWritesTakeEffectOnlyInIdle : Prop :=
  (∀ (s : State) (rest : List Event), s.block.busy = true →
    (∀ n v, s.env.events = .hostWrite n v :: rest → step s = .next (popped s rest))
    ∧ (∀ b k v, k < 65535 → s.env.events = .hostBufWrite b k v :: rest → step s = .next (popped s rest))
    ∧ (∀ n, s.env.events = .hostRead n :: rest → ∃ t, step s = .next t ∧ t.block = s.block
        ∧ t.env.trace = s.env.trace ++ [.read n (readNumber n s.block)])
    ∧ (∀ b k, k < 65535 → s.env.events = .hostBufRead b k :: rest → ∃ t, step s = .next t ∧ t.block = s.block
        ∧ t.env.trace = s.env.trace ++ [.bufRead b k (s.readByte b k)]))
  ∧ ∀ (s : State) (rest : List Event), s.block.busy = false →
    (∀ n v, n ≠ 0 → s.env.events = .hostWrite n v :: rest →
      step s = .next { popped s rest with block := writeNumber n v s.block })
    ∧ (∀ b k v, k < 65535 → b ≠ .obuf → s.env.events = .hostBufWrite b k v :: rest → ∃ t, step s = .next t
        ∧ t.env = (popped s rest).env ∧ t.readByte b k = v)

/-- R55, R56: a host read shows the value and has no side effect on any state of the block. -/
def Obligations.HostReadsHaveNoSideEffect : Prop :=
  ∀ (s : State) (rest : List Event),
    (∀ n, s.env.events = .hostRead n :: rest →
      step s = .next { s with env := { s.env with events := rest, trace := s.env.trace ++ [.read n (readNumber n s.block)] } })
    ∧ (∀ b k, k < 65535 → s.env.events = .hostBufRead b k :: rest →
      step s = .next { s with env := { s.env with events := rest, trace := s.env.trace ++ [.bufRead b k (s.readByte b k)] } })

/-- R21, R22, R55: the reserved numbers read as 0 and ignore writes, CMD reads as 0, and a register is reached by its own number. -/
def Obligations.RegisterMap : Prop :=
  (∀ n, regOfNumber n = none ↔
    n = 0x03 ∨ n = 0x0F ∨ (0x19 ≤ n ∧ n ≤ 0x1F) ∨ (0x2B ≤ n ∧ n ≤ 0x2F) ∨ (0x3A ≤ n ∧ n ≤ 0x3F) ∨ 0x48 < n)
  ∧ (∀ n b, regOfNumber n = none → readNumber n b = 0 ∧ ∀ v, writeNumber n v b = b)
  ∧ (∀ r, regOfNumber (regNumber r) = some r
      ∧ ∀ b, readNumber (regNumber r) b = readReg r b ∧ (readReg r b).toNat < 2 ^ regWidth r
        ∧ ∀ v, writeNumber (regNumber r) v b = writeReg r v b)
  ∧ (∀ b, readReg .CMD b = 0)

/-- R37: a write to a register of width `w` stores the low `w` bits; a read gives them zero-extended. A write to a register that is not
read-write stores nothing. -/
def Obligations.WritesAreTruncated : Prop :=
  ∀ (r : Reg) (v : Word) (b : Block),
    (regAccess r = .readWrite → (readReg r (writeReg r v b)).toNat = v.toNat % 2 ^ regWidth r)
    ∧ (regAccess r ≠ .readWrite → writeReg r v b = b)
    ∧ (readReg r b).toNat < 2 ^ regWidth r

/-- R40: no two registers share storage: a host write to one changes no other, and no buffer. -/
def Obligations.RegistersDoNotAlias : Prop :=
  ∀ (r r' : Reg) (v : Word) (b : Block), r ≠ r' →
    readReg r' (writeReg r v b) = readReg r' b ∧ ∀ buf, (writeReg r v b).buf buf = b.buf buf

/-- R56: a host write to a buffer byte in IDLE stores one byte of IBUF or PBUF and no other; a write to OBUF is ignored. -/
def Obligations.HostBufWriteStoresOneByte : Prop :=
  ∀ (s : State) (rest : List Event) (b : Buf) (k : Nat) (v : Byte), k < 65535 → s.block.busy = false →
    s.env.events = .hostBufWrite b k v :: rest →
    ∃ t, step s = .next t
      ∧ t.env = (popped s rest).env
      ∧ (b ≠ .obuf → t.readByte b k = v)
      ∧ (∀ b' k', (b' ≠ b ∨ k' ≠ k) → t.readByte b' k' = s.readByte b' k')
      ∧ (b = .obuf → t.block = s.block)
      ∧ t.block = { s.block with ibuf := t.block.ibuf, pbuf := t.block.pbuf }

/-- R101: the script line LDBUF, run from any idle state, makes its bytes the input of the next command. -/
def Obligations.LoadedBytesAreTheInput : Prop :=
  ∀ (s : State) (got : List Byte) (rest : List Event), got.length ≤ 65535 → s.block.busy = false →
    (s.env.events = scriptLdIbuf got ++ rest →
      ∃ t : State, Host.Core.run core (got.length + 1) s = .next t ∧ t.slice .ibuf 0 t.block.ilen.toNat = got
        ∧ t.env = (popped s rest).env ∧ t.block = { s.block with ibuf := t.block.ibuf, ilen := t.block.ilen })
    ∧ (s.env.events = scriptLdPbuf got ++ rest →
      ∃ t : State, Host.Core.run core (got.length + 1) s = .next t ∧ t.slice .pbuf 0 t.block.plen.toNat = got
        ∧ t.env = (popped s rest).env ∧ t.block = { s.block with pbuf := t.block.pbuf, plen := t.block.plen })

/-- R52, R53: `MemRead` after `MemWrite` gives the number written, and no other byte is changed. -/
def Obligations.MemReadAfterMemWrite : Prop :=
  ∀ (s : State) (off n v : Nat), v < 256 ^ n →
    let t : State := { s with block := { s.block with obuf := Memory.memWrite s.block.obuf off n v } }
    t.memRead .obuf off n = v
    ∧ ∀ k, (k < off ∨ off + n ≤ k) → t.readByte .obuf k = s.readByte .obuf k

/-! ### The whole machine -/

/-- The invariant holds after reset. -/
def Obligations.InvariantAtReset : Prop := State.reset.Inv

/-- Every step keeps the invariant: the buffers stay canonical, C_TIMER stays within 5 and above 0 during the wait, the wait is in
SYN_SENT, the P file is 0 where there is no packet, header lengths are multiples of 4, and the payload lies in IBUF. -/
def Obligations.EveryStepKeepsTheInvariant : Prop := ∀ s t : State, s.Inv → step s = .next t → t.Inv

/-- R170: the ConnectionState changes only as the transition table says. -/
def Obligations.ConnectionStateTransitions : Prop :=
  ∀ s t : State, s.Inv → step s = .next t → t.block.conn ≠ s.block.conn →
    (s.block.conn = .closed ∧ t.block.conn = .synSent ∧ s.block.busy = false ∧ t.block.busy = true
        ∧ s.env.events.head? = some (.hostWrite 0 (encode .connect)))
    ∨ (s.block.conn = .synSent ∧ t.block.conn = .established ∧ s.block.busy = true ∧ t.block.busy = false
        ∧ s.env.events.head? = some .rx)
    ∨ (t.block.conn = .closed ∧ (s.env.events.head? = some .reset
        ∨ (s.block.busy = false ∧ s.env.events.head? = some (.hostWrite 0 (encode .init)))))

/-- R98: what each command may write. Every register not in its row of the table, PBUF, and, for a command that has no OBUF in its row,
every buffer byte, is as before; and a command whose row names no port uses none. -/
def Obligations.CommandsTouchOnlyWhatTheTableLists : Prop :=
  ∀ (i : Instr) (s t : State), exec i s = .next t →
    (∀ r, r ∉ mayWrite i → s.block.busy = false → readReg r t.block = readReg r s.block)
    ∧ (i ≠ .init → t.block.ibuf = s.block.ibuf ∧ t.block.pbuf = s.block.pbuf ∧ t.env.epoch = s.env.epoch)
    ∧ (i ∈ [Instr.csum, .decTcp, .decIp, .parse] → t.block.obuf = s.block.obuf)
    ∧ (i ≠ .connect → i ≠ .send → t.env.trace = s.env.trace)
    ∧ t.env.events = s.env.events ∧ t.env.recvAnswers = s.env.recvAnswers

/-- R207, R205 (60_exceptions.md section 1), R175, R178 for the wait: the codes a command, a step of CONNECT's wait and an undecodable
word can end with. -/
def Obligations.CommandsEndWithTheirOwnErrors : Prop :=
  (∀ (i : Instr) (s t : State), exec i s = .next t →
    t.block.err ∈ endings i ∨ (i = .connect ∧ t.block.busy = true ∧ t.block.err = s.block.err))
  ∧ (∀ (s t : State) (rest : List Event), s.block.busy = true → (s.env.events = .rx :: rest ∨ s.env.events = .tick :: rest) →
      step s = .next t →
      (t.block.busy = true ∧ t.block.err = s.block.err) ∨ (t.block.busy = false ∧ t.block.err ∈ endings .connect))
  ∧ (∀ (s t : State) (w : Word) (rest : List Event) (e : DecodeError), s.block.busy = false → s.env.events = .hostWrite 0 w :: rest →
      decode w = .error e → step s = .next t → t.block.err = .illegalCommand)

/-- R209: a command that ends with error 1, 3, 5 or 6 leaves all state but ERR unchanged. -/
def Obligations.EarlyErrorsChangeOnlyErr : Prop :=
  ∀ (i : Instr) (s t : State), s.block.busy = false → exec i s = .next t → t.block.busy = false →
    t.block.err ∈ [Err.malformedHeader, .notConnected, .illegalCommand, .badLength] → t = onlyErr t.block.err s

/-- R182: outside CONNECT's wait no step polls the transport; so in ESTABLISHED the block never receives, and C_ACK is fixed for the
life of the connection. -/
def Obligations.EstablishedNeverReceives : Prop :=
  (∀ s t : State, s.block.busy = false → step s = .next t → ∀ m r, Obs.polled m r ∉ t.env.trace.drop s.env.trace.length)
  ∧ ∀ s t : State, s.Inv → s.block.conn = .established → step s = .next t →
    (∀ m r, Obs.polled m r ∉ t.env.trace.drop s.env.trace.length)
    ∧ (t.block.conn = .established → t.block.c.ack = s.block.c.ack ∧ t.block.c.localPort = s.block.c.localPort)

/-- R63, R146, R88: whatever a step sends is OBUF[0:OLEN], goes to C_REMOTE_IP, and begins with an IPv4 header whose total length is the
packet's length and whose checksum field is 0. -/
def Obligations.SentPacketsAreTheBuiltOnes : Prop :=
  ∀ (s t : State) (pkt : List Byte) (dst : Word) (r : SendAnswer), step s = .next t →
    Obs.sent pkt dst r ∈ t.env.trace.drop s.env.trace.length →
    dst = s.block.c.remoteIp ∧ pkt = t.slice .obuf 0 t.block.olen.toNat ∧ 40 ≤ pkt.length
    ∧ be16At pkt 2 = BitVec.ofNat 16 pkt.length ∧ pkt.length ≤ 65535 ∧ byteAt pkt 0 = 0x45 ∧ be16At pkt 10 = 0

/-- R252, R178: under enough ticks every wait ends: a schedule that holds as many ticks as C_TIMER has left, with polls and host accesses
interleaved in any way, leads out of the wait. -/
def Obligations.EveryWaitEnds : Prop :=
  ∀ s : State, s.Inv → s.block.busy = true → (∀ e ∈ s.env.events, e.admitted = true) →
    s.block.c.timer.toNat ≤ s.env.events.count .tick →
    s.block.c.timer.toNat ≤ 5
    ∧ ∃ k ≤ s.env.events.length, ∃ t : State, Host.Core.run core k s = .next t ∧ t.block.busy = false

/-- No command ever stops the machine, and no run does whose host accesses name buffer bytes that exist: a step faults exactly on an
access to a byte at or above BUF_MAX. -/
def Obligations.OnlyMissingBytesStopTheMachine : Prop :=
  (∀ i s, ∃ t, exec i s = .next t)
  ∧ (∀ s : State, (∃ t, step s = .next t) ↔ ∀ e ∈ s.env.events.head?, e.admitted = true)
  ∧ (∀ (k : Nat) (s : State), (∀ e ∈ s.env.events, e.admitted = true) → ∃ t : State, Host.Core.run core k s = .next t)
end

