-- ==== Sys2Proof/Laws/Checksum.lean ====
section
/-! SUPPORT. The laws of the fold: with enough turns it ends below 2^16, keeps the sum modulo 65535, and keeps a positive sum positive.
-/

namespace Sys2Proof.Machine

theorem foldCarries_lt (turns sum : Nat) (h : sum ≤ turns) : foldCarries turns sum < 65536 := by
  induction turns generalizing sum with
  | zero => simp [foldCarries]; omega
  | succ n ih =>
    simp only [foldCarries]
    split
    · omega
    · exact ih _ (by omega)

theorem foldCarries_mod (turns sum : Nat) : foldCarries turns sum % 65535 = sum % 65535 := by
  induction turns generalizing sum with
  | zero => rfl
  | succ n ih =>
    simp only [foldCarries]
    split
    · rfl
    · rw [ih]; omega

theorem foldCarries_pos (turns sum : Nat) (h : 0 < sum) : 0 < foldCarries turns sum := by
  induction turns generalizing sum with
  | zero => simpa [foldCarries] using h
  | succ n ih =>
    simp only [foldCarries]
    split
    · exact h
    · exact ih _ (by omega)

theorem foldedSum_lt (b : List Byte) : foldedSum b < 65536 := foldCarries_lt _ _ (Nat.le_refl _)

theorem foldedSum_mod (b : List Byte) : foldedSum b % 65535 = rawSum b % 65535 := foldCarries_mod _ _

theorem foldedSum_pos {b : List Byte} (h : 0 < rawSum b) : 0 < foldedSum b := foldCarries_pos _ _ h

/-- The checksum as a number: the complement of the folded sum. -/
theorem checksum_toNat (b : List Byte) : (checksum b).toNat = 65535 - foldedSum b := by
  have h := foldedSum_lt b
  simp only [checksum, BitVec.toNat_not, BitVec.toNat_ofNat]
  omega

theorem words16_append (a b : List Byte) (h : a.length % 2 = 0) : words16 (a ++ b) = words16 a ++ words16 b := by
  induction a using words16.induct with
  | case1 x y r ih =>
    simp only [List.length_cons] at h
    simp [words16, ih (by omega)]
  | case2 a hne =>
    match a, hne, h with
    | [], _, _ => simp [words16]
    | [x], _, h => simp at h
    | x :: y :: r, hne, _ => exact absurd rfl (hne x y r)

theorem padEven_length (b : List Byte) : (padEven b).length % 2 = 0 := by
  unfold padEven
  split
  · simp; omega
  · omega

/-- The raw sum of a sequence with an even prefix is the sum of the two raw sums. -/
theorem rawSum_append (a b : List Byte) (h : a.length % 2 = 0) : rawSum (a ++ b) = rawSum a + rawSum b := by
  have ha : padEven a = a := by simp [padEven, h]
  have hb : padEven (a ++ b) = a ++ padEven b := by
    have : (a.length + b.length) % 2 = b.length % 2 := by omega
    unfold padEven
    simp only [List.length_append, this]
    split <;> simp
  simp [rawSum, ha, hb, words16_append a _ h]

end Sys2Proof.Machine
end

