-- ==== Sys2Proof/Laws/Memory.lean ====
section
/-! SUPPORT. The laws of a buffer as a list of cells: a read after a write, a write leaves every other index alone, and every operation
keeps the canonical form. -/

namespace Sys2Proof.Machine

@[simp] theorem Memory.read_nil (k : Nat) : Memory.read [] k = none := rfl

theorem Memory.read_write_same (m : Memory) (k : Nat) (v : Byte) : Memory.read (Memory.write m k v) k = some v := by
  induction m with
  | nil => simp [Memory.write, Memory.read]
  | cons cell r ih =>
    obtain ⟨j, w⟩ := cell
    simp only [Memory.write]
    split
    · simp [Memory.read]
    · split
      · simp [Memory.read]
      · have hne : j ≠ k := by omega
        simp [Memory.read, hne, ih]

theorem Memory.read_write_other (m : Memory) {k k' : Nat} (v : Byte) (h : k' ≠ k) :
    Memory.read (Memory.write m k v) k' = Memory.read m k' := by
  induction m with
  | nil => simp [Memory.write, Memory.read, Ne.symm h]
  | cons cell r ih =>
    obtain ⟨j, w⟩ := cell
    simp only [Memory.write]
    split
    · simp [Memory.read, Ne.symm h]
    · split
      · subst_vars
        simp [Memory.read, Ne.symm h]
      · simp [Memory.read, ih]

theorem Memory.risingFrom_write (m : Memory) {lo k : Nat} (v : Byte) (h : Memory.risingFrom lo m = true) (hlo : lo ≤ k)
    (hk : k < bufMax) : Memory.risingFrom lo (Memory.write m k v) = true := by
  induction m generalizing lo with
  | nil => simp [Memory.write, Memory.risingFrom, hlo, hk]
  | cons cell r ih =>
    obtain ⟨j, w⟩ := cell
    simp only [Memory.risingFrom, Bool.and_eq_true, decide_eq_true_eq] at h
    obtain ⟨⟨hj, hjm⟩, hr⟩ := h
    simp only [Memory.write]
    split
    · rename_i hkj
      simp [Memory.risingFrom, hlo, hk, hjm, hr, Nat.succ_le_of_lt hkj]
    · split
      · subst_vars
        simp [Memory.risingFrom, hlo, hk, hr]
      · simp [Memory.risingFrom, hj, hjm, ih hr (by omega)]

/-- Writing one byte keeps the canonical form. -/
theorem Memory.wf_write (m : Memory) {k : Nat} (v : Byte) (h : Memory.wf m = true) (hk : k < bufMax) :
    Memory.wf (Memory.write m k v) = true :=
  Memory.risingFrom_write m v h (Nat.zero_le k) hk

theorem Memory.read_append (m n : Memory) (k : Nat) :
    Memory.read (m ++ n) k = (Memory.read m k).or (Memory.read n k) := by
  induction m with
  | nil => simp
  | cons cell r ih =>
    obtain ⟨j, w⟩ := cell
    by_cases h : j = k <;> simp [Memory.read, h, ih]

theorem Memory.read_cellsFrom (b : List Byte) (j k : Nat) :
    Memory.read (cellsFrom j b) k = if j ≤ k then b[k - j]? else none := by
  induction b generalizing j with
  | nil => simp [cellsFrom]
  | cons x r ih =>
    simp only [cellsFrom, Memory.read, ih]
    by_cases h : j = k
    · simp [h]
    · by_cases hle : j ≤ k
      · have h1 : j + 1 ≤ k := by omega
        have h2 : k - j = (k - (j + 1)) + 1 := by omega
        simp [h, hle, h1, h2]
      · have h1 : ¬ j + 1 ≤ k := by omega
        simp [h, hle, h1]

theorem Memory.read_filter (m : Memory) (n k : Nat) (h : n ≤ k) :
    Memory.read (m.filter (fun cell => decide (n ≤ cell.1))) k = Memory.read m k := by
  induction m with
  | nil => rfl
  | cons cell r ih =>
    obtain ⟨j, w⟩ := cell
    by_cases hj : n ≤ j
    · simp [hj, Memory.read, ih]
    · have hne : j ≠ k := by omega
      simp [hj, Memory.read, hne, ih]

/-- Below the length of what was written, the bytes written are read. -/
theorem Memory.read_writeFront_lt (m : Memory) (b : List Byte) {k : Nat} (h : k < b.length) :
    Memory.read (Memory.writeFront m b) k = some b[k] := by
  simp [Memory.writeFront, Memory.read_append, Memory.read_cellsFrom, h]

/-- At and above it, a buffer keeps what it held. -/
theorem Memory.read_writeFront_ge (m : Memory) (b : List Byte) {k : Nat} (h : b.length ≤ k) :
    Memory.read (Memory.writeFront m b) k = Memory.read m k := by
  simp [Memory.writeFront, Memory.read_append, Memory.read_cellsFrom, h, Memory.read_filter]

theorem Memory.risingFrom_mono (m : Memory) {lo lo' : Nat} (h : Memory.risingFrom lo m = true) (hle : lo' ≤ lo) :
    Memory.risingFrom lo' m = true := by
  cases m with
  | nil => rfl
  | cons cell r =>
    obtain ⟨j, w⟩ := cell
    simp only [Memory.risingFrom, Bool.and_eq_true, decide_eq_true_eq] at h ⊢
    exact ⟨⟨by omega, h.1.2⟩, h.2⟩

/-- A buffer whose indices are all at least `n` loses nothing to the filter. -/
theorem Memory.filter_of_risingFrom (m : Memory) {lo n : Nat} (h : Memory.risingFrom lo m = true) (hn : n ≤ lo) :
    m.filter (fun cell => decide (n ≤ cell.1)) = m := by
  induction m generalizing lo with
  | nil => rfl
  | cons cell r ih =>
    obtain ⟨j, w⟩ := cell
    simp only [Memory.risingFrom, Bool.and_eq_true, decide_eq_true_eq] at h
    have hj : n ≤ j := by omega
    simp [hj, ih h.2 (by omega)]

theorem Memory.risingFrom_filter (m : Memory) {lo n : Nat} (h : Memory.risingFrom lo m = true) :
    Memory.risingFrom n (m.filter (fun cell => decide (n ≤ cell.1))) = true := by
  induction m generalizing lo with
  | nil => rfl
  | cons cell r ih =>
    obtain ⟨j, w⟩ := cell
    simp only [Memory.risingFrom, Bool.and_eq_true, decide_eq_true_eq] at h
    obtain ⟨⟨hj, hjm⟩, hr⟩ := h
    by_cases hn : n ≤ j
    · simp [hn, Memory.risingFrom, hjm, Memory.filter_of_risingFrom r hr (by omega : n ≤ j + 1), hr]
    · simp [hn, ih hr]

theorem Memory.risingFrom_cells_append (b : List Byte) (m : Memory) (k : Nat) (hk : k + b.length ≤ bufMax)
    (h : Memory.risingFrom (k + b.length) m = true) : Memory.risingFrom k (cellsFrom k b ++ m) = true := by
  induction b generalizing k with
  | nil => simpa [cellsFrom] using h
  | cons x r ih =>
    simp only [List.length_cons] at hk h
    have h' : Memory.risingFrom (k + 1 + r.length) m = true := by
      have : k + 1 + r.length = k + (r.length + 1) := by omega
      rw [this]; exact h
    simp [cellsFrom, Memory.risingFrom, ih (k + 1) (by omega) h']
    omega

/-- Writing the front of a buffer keeps the canonical form. -/
theorem Memory.wf_writeFront (m : Memory) (b : List Byte) (h : Memory.wf m = true) (hb : b.length ≤ bufMax) :
    Memory.wf (Memory.writeFront m b) = true := by
  refine Memory.risingFrom_cells_append b _ 0 (by omega) ?_
  simpa using Memory.risingFrom_filter m (n := b.length) h

/-- Writing bytes one at a time keeps the canonical form. -/
theorem Memory.wf_writeAll (m : Memory) (b : List Byte) (k : Nat) (h : Memory.wf m = true) (hb : k + b.length ≤ bufMax) :
    Memory.wf (Memory.writeAll m k b) = true := by
  induction b generalizing m k with
  | nil => exact h
  | cons x r ih =>
    simp only [List.length_cons] at hb
    exact ih _ (k + 1) (Memory.wf_write m x h (by omega)) (by omega)

@[simp] theorem beBytes_length (n v : Nat) : (beBytes n v).length = n := by
  induction n with
  | zero => rfl
  | succ n ih => simp [beBytes, ih]

/-- `MemWrite` keeps the canonical form. -/
theorem Memory.wf_memWrite (m : Memory) (off n v : Nat) (h : Memory.wf m = true) (hb : off + n ≤ bufMax) :
    Memory.wf (Memory.memWrite m off n v) = true :=
  Memory.wf_writeAll m _ off h (by simpa using hb)

/-- The buffers of the reset state are in canonical form. -/
theorem Block.reset_wf :
    Memory.wf Block.reset.ibuf = true ∧ Memory.wf Block.reset.obuf = true ∧ Memory.wf Block.reset.pbuf = true := by decide

end Sys2Proof.Machine
end

