-- ==== Sys2Proof/Laws/State.lean ====
section
/-! SUPPORT. One lemma per field and per named update of the state, so that no later proof unfolds a record update: first the updates of
the block, then those of the record of the environment. -/

namespace Sys2Proof.Machine

/-! `putObuf` -/

@[simp] theorem putObuf_busy (b : List Byte) (s : State) : (putObuf b s).block.busy = s.block.busy := rfl
@[simp] theorem putObuf_conn (b : List Byte) (s : State) : (putObuf b s).block.conn = s.block.conn := rfl
@[simp] theorem putObuf_err (b : List Byte) (s : State) : (putObuf b s).block.err = s.block.err := rfl
@[simp] theorem putObuf_a (b : List Byte) (s : State) : (putObuf b s).block.a = s.block.a := rfl
@[simp] theorem putObuf_ilen (b : List Byte) (s : State) : (putObuf b s).block.ilen = s.block.ilen := rfl
@[simp] theorem putObuf_olen (b : List Byte) (s : State) : (putObuf b s).block.olen = BitVec.ofNat 16 b.length := rfl
@[simp] theorem putObuf_plen (b : List Byte) (s : State) : (putObuf b s).block.plen = s.block.plen := rfl
@[simp] theorem putObuf_rCsum (b : List Byte) (s : State) : (putObuf b s).block.rCsum = s.block.rCsum := rfl
@[simp] theorem putObuf_rIphl (b : List Byte) (s : State) : (putObuf b s).block.rIphl = s.block.rIphl := rfl
@[simp] theorem putObuf_rTcphl (b : List Byte) (s : State) : (putObuf b s).block.rTcphl = s.block.rTcphl := rfl
@[simp] theorem putObuf_t (b : List Byte) (s : State) : (putObuf b s).block.t = s.block.t := rfl
@[simp] theorem putObuf_i (b : List Byte) (s : State) : (putObuf b s).block.i = s.block.i := rfl
@[simp] theorem putObuf_p (b : List Byte) (s : State) : (putObuf b s).block.p = s.block.p := rfl
@[simp] theorem putObuf_c (b : List Byte) (s : State) : (putObuf b s).block.c = s.block.c := rfl
@[simp] theorem putObuf_ibuf (b : List Byte) (s : State) : (putObuf b s).block.ibuf = s.block.ibuf := rfl
@[simp] theorem putObuf_obuf (b : List Byte) (s : State) : (putObuf b s).block.obuf = Memory.writeFront s.block.obuf b := rfl
@[simp] theorem putObuf_pbuf (b : List Byte) (s : State) : (putObuf b s).block.pbuf = s.block.pbuf := rfl
@[simp] theorem putObuf_env (b : List Byte) (s : State) : (putObuf b s).env = s.env := rfl

/-! `putIbuf` -/

@[simp] theorem putIbuf_busy (b : List Byte) (s : State) : (putIbuf b s).block.busy = s.block.busy := rfl
@[simp] theorem putIbuf_conn (b : List Byte) (s : State) : (putIbuf b s).block.conn = s.block.conn := rfl
@[simp] theorem putIbuf_err (b : List Byte) (s : State) : (putIbuf b s).block.err = s.block.err := rfl
@[simp] theorem putIbuf_a (b : List Byte) (s : State) : (putIbuf b s).block.a = s.block.a := rfl
@[simp] theorem putIbuf_ilen (b : List Byte) (s : State) : (putIbuf b s).block.ilen = BitVec.ofNat 16 b.length := rfl
@[simp] theorem putIbuf_olen (b : List Byte) (s : State) : (putIbuf b s).block.olen = s.block.olen := rfl
@[simp] theorem putIbuf_plen (b : List Byte) (s : State) : (putIbuf b s).block.plen = s.block.plen := rfl
@[simp] theorem putIbuf_rCsum (b : List Byte) (s : State) : (putIbuf b s).block.rCsum = s.block.rCsum := rfl
@[simp] theorem putIbuf_rIphl (b : List Byte) (s : State) : (putIbuf b s).block.rIphl = s.block.rIphl := rfl
@[simp] theorem putIbuf_rTcphl (b : List Byte) (s : State) : (putIbuf b s).block.rTcphl = s.block.rTcphl := rfl
@[simp] theorem putIbuf_t (b : List Byte) (s : State) : (putIbuf b s).block.t = s.block.t := rfl
@[simp] theorem putIbuf_i (b : List Byte) (s : State) : (putIbuf b s).block.i = s.block.i := rfl
@[simp] theorem putIbuf_p (b : List Byte) (s : State) : (putIbuf b s).block.p = s.block.p := rfl
@[simp] theorem putIbuf_c (b : List Byte) (s : State) : (putIbuf b s).block.c = s.block.c := rfl
@[simp] theorem putIbuf_ibuf (b : List Byte) (s : State) : (putIbuf b s).block.ibuf = Memory.writeFront s.block.ibuf b := rfl
@[simp] theorem putIbuf_obuf (b : List Byte) (s : State) : (putIbuf b s).block.obuf = s.block.obuf := rfl
@[simp] theorem putIbuf_pbuf (b : List Byte) (s : State) : (putIbuf b s).block.pbuf = s.block.pbuf := rfl
@[simp] theorem putIbuf_env (b : List Byte) (s : State) : (putIbuf b s).env = s.env := rfl

/-! `putCsum` -/

@[simp] theorem putCsum_busy (v : Half) (s : State) : (putCsum v s).block.busy = s.block.busy := rfl
@[simp] theorem putCsum_conn (v : Half) (s : State) : (putCsum v s).block.conn = s.block.conn := rfl
@[simp] theorem putCsum_err (v : Half) (s : State) : (putCsum v s).block.err = s.block.err := rfl
@[simp] theorem putCsum_a (v : Half) (s : State) : (putCsum v s).block.a = s.block.a := rfl
@[simp] theorem putCsum_ilen (v : Half) (s : State) : (putCsum v s).block.ilen = s.block.ilen := rfl
@[simp] theorem putCsum_olen (v : Half) (s : State) : (putCsum v s).block.olen = s.block.olen := rfl
@[simp] theorem putCsum_plen (v : Half) (s : State) : (putCsum v s).block.plen = s.block.plen := rfl
@[simp] theorem putCsum_rCsum (v : Half) (s : State) : (putCsum v s).block.rCsum = v := rfl
@[simp] theorem putCsum_rIphl (v : Half) (s : State) : (putCsum v s).block.rIphl = s.block.rIphl := rfl
@[simp] theorem putCsum_rTcphl (v : Half) (s : State) : (putCsum v s).block.rTcphl = s.block.rTcphl := rfl
@[simp] theorem putCsum_t (v : Half) (s : State) : (putCsum v s).block.t = s.block.t := rfl
@[simp] theorem putCsum_i (v : Half) (s : State) : (putCsum v s).block.i = s.block.i := rfl
@[simp] theorem putCsum_p (v : Half) (s : State) : (putCsum v s).block.p = s.block.p := rfl
@[simp] theorem putCsum_c (v : Half) (s : State) : (putCsum v s).block.c = s.block.c := rfl
@[simp] theorem putCsum_ibuf (v : Half) (s : State) : (putCsum v s).block.ibuf = s.block.ibuf := rfl
@[simp] theorem putCsum_obuf (v : Half) (s : State) : (putCsum v s).block.obuf = s.block.obuf := rfl
@[simp] theorem putCsum_pbuf (v : Half) (s : State) : (putCsum v s).block.pbuf = s.block.pbuf := rfl
@[simp] theorem putCsum_env (v : Half) (s : State) : (putCsum v s).env = s.env := rfl

/-! `finish` -/

@[simp] theorem finish_busy (s : State) : (finish s).block.busy = s.block.busy := rfl
@[simp] theorem finish_conn (s : State) : (finish s).block.conn = s.block.conn := rfl
@[simp] theorem finish_err (s : State) : (finish s).block.err = .noError := rfl
@[simp] theorem finish_a (s : State) : (finish s).block.a = s.block.a := rfl
@[simp] theorem finish_ilen (s : State) : (finish s).block.ilen = s.block.ilen := rfl
@[simp] theorem finish_olen (s : State) : (finish s).block.olen = s.block.olen := rfl
@[simp] theorem finish_plen (s : State) : (finish s).block.plen = s.block.plen := rfl
@[simp] theorem finish_rCsum (s : State) : (finish s).block.rCsum = s.block.rCsum := rfl
@[simp] theorem finish_rIphl (s : State) : (finish s).block.rIphl = s.block.rIphl := rfl
@[simp] theorem finish_rTcphl (s : State) : (finish s).block.rTcphl = s.block.rTcphl := rfl
@[simp] theorem finish_t (s : State) : (finish s).block.t = s.block.t := rfl
@[simp] theorem finish_i (s : State) : (finish s).block.i = s.block.i := rfl
@[simp] theorem finish_p (s : State) : (finish s).block.p = s.block.p := rfl
@[simp] theorem finish_c (s : State) : (finish s).block.c = s.block.c := rfl
@[simp] theorem finish_ibuf (s : State) : (finish s).block.ibuf = s.block.ibuf := rfl
@[simp] theorem finish_obuf (s : State) : (finish s).block.obuf = s.block.obuf := rfl
@[simp] theorem finish_pbuf (s : State) : (finish s).block.pbuf = s.block.pbuf := rfl
@[simp] theorem finish_env (s : State) : (finish s).env = s.env := rfl

/-! `raise` -/

@[simp] theorem raise_busy (e : Err) (s : State) : (raise e s).block.busy = false := rfl
@[simp] theorem raise_conn (e : Err) (s : State) : (raise e s).block.conn = s.block.conn := rfl
@[simp] theorem raise_err (e : Err) (s : State) : (raise e s).block.err = e := rfl
@[simp] theorem raise_a (e : Err) (s : State) : (raise e s).block.a = s.block.a := rfl
@[simp] theorem raise_ilen (e : Err) (s : State) : (raise e s).block.ilen = s.block.ilen := rfl
@[simp] theorem raise_olen (e : Err) (s : State) : (raise e s).block.olen = s.block.olen := rfl
@[simp] theorem raise_plen (e : Err) (s : State) : (raise e s).block.plen = s.block.plen := rfl
@[simp] theorem raise_rCsum (e : Err) (s : State) : (raise e s).block.rCsum = s.block.rCsum := rfl
@[simp] theorem raise_rIphl (e : Err) (s : State) : (raise e s).block.rIphl = s.block.rIphl := rfl
@[simp] theorem raise_rTcphl (e : Err) (s : State) : (raise e s).block.rTcphl = s.block.rTcphl := rfl
@[simp] theorem raise_t (e : Err) (s : State) : (raise e s).block.t = s.block.t := rfl
@[simp] theorem raise_i (e : Err) (s : State) : (raise e s).block.i = s.block.i := rfl
@[simp] theorem raise_p (e : Err) (s : State) : (raise e s).block.p = s.block.p := rfl
@[simp] theorem raise_c (e : Err) (s : State) : (raise e s).block.c = s.block.c := rfl
@[simp] theorem raise_ibuf (e : Err) (s : State) : (raise e s).block.ibuf = s.block.ibuf := rfl
@[simp] theorem raise_obuf (e : Err) (s : State) : (raise e s).block.obuf = s.block.obuf := rfl
@[simp] theorem raise_pbuf (e : Err) (s : State) : (raise e s).block.pbuf = s.block.pbuf := rfl
@[simp] theorem raise_env (e : Err) (s : State) : (raise e s).env = s.env := rfl

/-! `enterWait` -/

@[simp] theorem enterWait_busy (s : State) : (enterWait s).block.busy = true := rfl
@[simp] theorem enterWait_conn (s : State) : (enterWait s).block.conn = s.block.conn := rfl
@[simp] theorem enterWait_err (s : State) : (enterWait s).block.err = s.block.err := rfl
@[simp] theorem enterWait_a (s : State) : (enterWait s).block.a = s.block.a := rfl
@[simp] theorem enterWait_ilen (s : State) : (enterWait s).block.ilen = s.block.ilen := rfl
@[simp] theorem enterWait_olen (s : State) : (enterWait s).block.olen = s.block.olen := rfl
@[simp] theorem enterWait_plen (s : State) : (enterWait s).block.plen = s.block.plen := rfl
@[simp] theorem enterWait_rCsum (s : State) : (enterWait s).block.rCsum = s.block.rCsum := rfl
@[simp] theorem enterWait_rIphl (s : State) : (enterWait s).block.rIphl = s.block.rIphl := rfl
@[simp] theorem enterWait_rTcphl (s : State) : (enterWait s).block.rTcphl = s.block.rTcphl := rfl
@[simp] theorem enterWait_t (s : State) : (enterWait s).block.t = s.block.t := rfl
@[simp] theorem enterWait_i (s : State) : (enterWait s).block.i = s.block.i := rfl
@[simp] theorem enterWait_p (s : State) : (enterWait s).block.p = s.block.p := rfl
@[simp] theorem enterWait_c (s : State) : (enterWait s).block.c = s.block.c := rfl
@[simp] theorem enterWait_ibuf (s : State) : (enterWait s).block.ibuf = s.block.ibuf := rfl
@[simp] theorem enterWait_obuf (s : State) : (enterWait s).block.obuf = s.block.obuf := rfl
@[simp] theorem enterWait_pbuf (s : State) : (enterWait s).block.pbuf = s.block.pbuf := rfl
@[simp] theorem enterWait_env (s : State) : (enterWait s).env = s.env := rfl

/-! `leaveWait` -/

@[simp] theorem leaveWait_busy (s : State) : (leaveWait s).block.busy = false := rfl
@[simp] theorem leaveWait_conn (s : State) : (leaveWait s).block.conn = s.block.conn := rfl
@[simp] theorem leaveWait_err (s : State) : (leaveWait s).block.err = s.block.err := rfl
@[simp] theorem leaveWait_a (s : State) : (leaveWait s).block.a = s.block.a := rfl
@[simp] theorem leaveWait_ilen (s : State) : (leaveWait s).block.ilen = s.block.ilen := rfl
@[simp] theorem leaveWait_olen (s : State) : (leaveWait s).block.olen = s.block.olen := rfl
@[simp] theorem leaveWait_plen (s : State) : (leaveWait s).block.plen = s.block.plen := rfl
@[simp] theorem leaveWait_rCsum (s : State) : (leaveWait s).block.rCsum = s.block.rCsum := rfl
@[simp] theorem leaveWait_rIphl (s : State) : (leaveWait s).block.rIphl = s.block.rIphl := rfl
@[simp] theorem leaveWait_rTcphl (s : State) : (leaveWait s).block.rTcphl = s.block.rTcphl := rfl
@[simp] theorem leaveWait_t (s : State) : (leaveWait s).block.t = s.block.t := rfl
@[simp] theorem leaveWait_i (s : State) : (leaveWait s).block.i = s.block.i := rfl
@[simp] theorem leaveWait_p (s : State) : (leaveWait s).block.p = s.block.p := rfl
@[simp] theorem leaveWait_c (s : State) : (leaveWait s).block.c = s.block.c := rfl
@[simp] theorem leaveWait_ibuf (s : State) : (leaveWait s).block.ibuf = s.block.ibuf := rfl
@[simp] theorem leaveWait_obuf (s : State) : (leaveWait s).block.obuf = s.block.obuf := rfl
@[simp] theorem leaveWait_pbuf (s : State) : (leaveWait s).block.pbuf = s.block.pbuf := rfl
@[simp] theorem leaveWait_env (s : State) : (leaveWait s).env = s.env := rfl

/-! `putTcp` -/

@[simp] theorem putTcp_busy (f : TcpHeader) (s : State) : (putTcp f s).block.busy = s.block.busy := rfl
@[simp] theorem putTcp_conn (f : TcpHeader) (s : State) : (putTcp f s).block.conn = s.block.conn := rfl
@[simp] theorem putTcp_err (f : TcpHeader) (s : State) : (putTcp f s).block.err = s.block.err := rfl
@[simp] theorem putTcp_a (f : TcpHeader) (s : State) : (putTcp f s).block.a = s.block.a := rfl
@[simp] theorem putTcp_ilen (f : TcpHeader) (s : State) : (putTcp f s).block.ilen = s.block.ilen := rfl
@[simp] theorem putTcp_olen (f : TcpHeader) (s : State) : (putTcp f s).block.olen = s.block.olen := rfl
@[simp] theorem putTcp_plen (f : TcpHeader) (s : State) : (putTcp f s).block.plen = s.block.plen := rfl
@[simp] theorem putTcp_rCsum (f : TcpHeader) (s : State) : (putTcp f s).block.rCsum = s.block.rCsum := rfl
@[simp] theorem putTcp_rIphl (f : TcpHeader) (s : State) : (putTcp f s).block.rIphl = s.block.rIphl := rfl
@[simp] theorem putTcp_rTcphl (f : TcpHeader) (s : State) : (putTcp f s).block.rTcphl = BitVec.ofNat 6 (headerBytes f.doff) := rfl
@[simp] theorem putTcp_t (f : TcpHeader) (s : State) : (putTcp f s).block.t = f := rfl
@[simp] theorem putTcp_i (f : TcpHeader) (s : State) : (putTcp f s).block.i = s.block.i := rfl
@[simp] theorem putTcp_p (f : TcpHeader) (s : State) : (putTcp f s).block.p = s.block.p := rfl
@[simp] theorem putTcp_c (f : TcpHeader) (s : State) : (putTcp f s).block.c = s.block.c := rfl
@[simp] theorem putTcp_ibuf (f : TcpHeader) (s : State) : (putTcp f s).block.ibuf = s.block.ibuf := rfl
@[simp] theorem putTcp_obuf (f : TcpHeader) (s : State) : (putTcp f s).block.obuf = s.block.obuf := rfl
@[simp] theorem putTcp_pbuf (f : TcpHeader) (s : State) : (putTcp f s).block.pbuf = s.block.pbuf := rfl
@[simp] theorem putTcp_env (f : TcpHeader) (s : State) : (putTcp f s).env = s.env := rfl

/-! `putIp` -/

@[simp] theorem putIp_busy (g : IpHeader) (s : State) : (putIp g s).block.busy = s.block.busy := rfl
@[simp] theorem putIp_conn (g : IpHeader) (s : State) : (putIp g s).block.conn = s.block.conn := rfl
@[simp] theorem putIp_err (g : IpHeader) (s : State) : (putIp g s).block.err = s.block.err := rfl
@[simp] theorem putIp_a (g : IpHeader) (s : State) : (putIp g s).block.a = s.block.a := rfl
@[simp] theorem putIp_ilen (g : IpHeader) (s : State) : (putIp g s).block.ilen = s.block.ilen := rfl
@[simp] theorem putIp_olen (g : IpHeader) (s : State) : (putIp g s).block.olen = s.block.olen := rfl
@[simp] theorem putIp_plen (g : IpHeader) (s : State) : (putIp g s).block.plen = s.block.plen := rfl
@[simp] theorem putIp_rCsum (g : IpHeader) (s : State) : (putIp g s).block.rCsum = s.block.rCsum := rfl
@[simp] theorem putIp_rIphl (g : IpHeader) (s : State) : (putIp g s).block.rIphl = BitVec.ofNat 6 (headerBytes g.ihl) := rfl
@[simp] theorem putIp_rTcphl (g : IpHeader) (s : State) : (putIp g s).block.rTcphl = s.block.rTcphl := rfl
@[simp] theorem putIp_t (g : IpHeader) (s : State) : (putIp g s).block.t = s.block.t := rfl
@[simp] theorem putIp_i (g : IpHeader) (s : State) : (putIp g s).block.i = g := rfl
@[simp] theorem putIp_p (g : IpHeader) (s : State) : (putIp g s).block.p = s.block.p := rfl
@[simp] theorem putIp_c (g : IpHeader) (s : State) : (putIp g s).block.c = s.block.c := rfl
@[simp] theorem putIp_ibuf (g : IpHeader) (s : State) : (putIp g s).block.ibuf = s.block.ibuf := rfl
@[simp] theorem putIp_obuf (g : IpHeader) (s : State) : (putIp g s).block.obuf = s.block.obuf := rfl
@[simp] theorem putIp_pbuf (g : IpHeader) (s : State) : (putIp g s).block.pbuf = s.block.pbuf := rfl
@[simp] theorem putIp_env (g : IpHeader) (s : State) : (putIp g s).env = s.env := rfl

/-! `putParsed` -/

@[simp] theorem putParsed_busy (r : Option ParsedPacket) (s : State) : (putParsed r s).block.busy = s.block.busy := rfl
@[simp] theorem putParsed_conn (r : Option ParsedPacket) (s : State) : (putParsed r s).block.conn = s.block.conn := rfl
@[simp] theorem putParsed_err (r : Option ParsedPacket) (s : State) : (putParsed r s).block.err = s.block.err := rfl
@[simp] theorem putParsed_a (r : Option ParsedPacket) (s : State) : (putParsed r s).block.a = s.block.a := rfl
@[simp] theorem putParsed_ilen (r : Option ParsedPacket) (s : State) : (putParsed r s).block.ilen = s.block.ilen := rfl
@[simp] theorem putParsed_olen (r : Option ParsedPacket) (s : State) : (putParsed r s).block.olen = s.block.olen := rfl
@[simp] theorem putParsed_plen (r : Option ParsedPacket) (s : State) : (putParsed r s).block.plen = s.block.plen := rfl
@[simp] theorem putParsed_rCsum (r : Option ParsedPacket) (s : State) : (putParsed r s).block.rCsum = s.block.rCsum := rfl
@[simp] theorem putParsed_rIphl (r : Option ParsedPacket) (s : State) : (putParsed r s).block.rIphl = s.block.rIphl := rfl
@[simp] theorem putParsed_rTcphl (r : Option ParsedPacket) (s : State) : (putParsed r s).block.rTcphl = s.block.rTcphl := rfl
@[simp] theorem putParsed_t (r : Option ParsedPacket) (s : State) : (putParsed r s).block.t = s.block.t := rfl
@[simp] theorem putParsed_i (r : Option ParsedPacket) (s : State) : (putParsed r s).block.i = s.block.i := rfl
@[simp] theorem putParsed_p (r : Option ParsedPacket) (s : State) : (putParsed r s).block.p = parsedFile r := rfl
@[simp] theorem putParsed_c (r : Option ParsedPacket) (s : State) : (putParsed r s).block.c = s.block.c := rfl
@[simp] theorem putParsed_ibuf (r : Option ParsedPacket) (s : State) : (putParsed r s).block.ibuf = s.block.ibuf := rfl
@[simp] theorem putParsed_obuf (r : Option ParsedPacket) (s : State) : (putParsed r s).block.obuf = s.block.obuf := rfl
@[simp] theorem putParsed_pbuf (r : Option ParsedPacket) (s : State) : (putParsed r s).block.pbuf = s.block.pbuf := rfl
@[simp] theorem putParsed_env (r : Option ParsedPacket) (s : State) : (putParsed r s).env = s.env := rfl

/-! `putConn` -/

@[simp] theorem putConn_busy (v : Conn) (s : State) : (putConn v s).block.busy = s.block.busy := rfl
@[simp] theorem putConn_conn (v : Conn) (s : State) : (putConn v s).block.conn = v := rfl
@[simp] theorem putConn_err (v : Conn) (s : State) : (putConn v s).block.err = s.block.err := rfl
@[simp] theorem putConn_a (v : Conn) (s : State) : (putConn v s).block.a = s.block.a := rfl
@[simp] theorem putConn_ilen (v : Conn) (s : State) : (putConn v s).block.ilen = s.block.ilen := rfl
@[simp] theorem putConn_olen (v : Conn) (s : State) : (putConn v s).block.olen = s.block.olen := rfl
@[simp] theorem putConn_plen (v : Conn) (s : State) : (putConn v s).block.plen = s.block.plen := rfl
@[simp] theorem putConn_rCsum (v : Conn) (s : State) : (putConn v s).block.rCsum = s.block.rCsum := rfl
@[simp] theorem putConn_rIphl (v : Conn) (s : State) : (putConn v s).block.rIphl = s.block.rIphl := rfl
@[simp] theorem putConn_rTcphl (v : Conn) (s : State) : (putConn v s).block.rTcphl = s.block.rTcphl := rfl
@[simp] theorem putConn_t (v : Conn) (s : State) : (putConn v s).block.t = s.block.t := rfl
@[simp] theorem putConn_i (v : Conn) (s : State) : (putConn v s).block.i = s.block.i := rfl
@[simp] theorem putConn_p (v : Conn) (s : State) : (putConn v s).block.p = s.block.p := rfl
@[simp] theorem putConn_c (v : Conn) (s : State) : (putConn v s).block.c = s.block.c := rfl
@[simp] theorem putConn_ibuf (v : Conn) (s : State) : (putConn v s).block.ibuf = s.block.ibuf := rfl
@[simp] theorem putConn_obuf (v : Conn) (s : State) : (putConn v s).block.obuf = s.block.obuf := rfl
@[simp] theorem putConn_pbuf (v : Conn) (s : State) : (putConn v s).block.pbuf = s.block.pbuf := rfl
@[simp] theorem putConn_env (v : Conn) (s : State) : (putConn v s).env = s.env := rfl

/-! `putDrawn` -/

@[simp] theorem putDrawn_busy (isn : Word) (port : Half) (s : State) : (putDrawn isn port s).block.busy = s.block.busy := rfl
@[simp] theorem putDrawn_conn (isn : Word) (port : Half) (s : State) : (putDrawn isn port s).block.conn = s.block.conn := rfl
@[simp] theorem putDrawn_err (isn : Word) (port : Half) (s : State) : (putDrawn isn port s).block.err = s.block.err := rfl
@[simp] theorem putDrawn_a (isn : Word) (port : Half) (s : State) : (putDrawn isn port s).block.a = s.block.a := rfl
@[simp] theorem putDrawn_ilen (isn : Word) (port : Half) (s : State) : (putDrawn isn port s).block.ilen = s.block.ilen := rfl
@[simp] theorem putDrawn_olen (isn : Word) (port : Half) (s : State) : (putDrawn isn port s).block.olen = s.block.olen := rfl
@[simp] theorem putDrawn_plen (isn : Word) (port : Half) (s : State) : (putDrawn isn port s).block.plen = s.block.plen := rfl
@[simp] theorem putDrawn_rCsum (isn : Word) (port : Half) (s : State) : (putDrawn isn port s).block.rCsum = s.block.rCsum := rfl
@[simp] theorem putDrawn_rIphl (isn : Word) (port : Half) (s : State) : (putDrawn isn port s).block.rIphl = s.block.rIphl := rfl
@[simp] theorem putDrawn_rTcphl (isn : Word) (port : Half) (s : State) : (putDrawn isn port s).block.rTcphl = s.block.rTcphl := rfl
@[simp] theorem putDrawn_t (isn : Word) (port : Half) (s : State) : (putDrawn isn port s).block.t = s.block.t := rfl
@[simp] theorem putDrawn_i (isn : Word) (port : Half) (s : State) : (putDrawn isn port s).block.i = s.block.i := rfl
@[simp] theorem putDrawn_p (isn : Word) (port : Half) (s : State) : (putDrawn isn port s).block.p = s.block.p := rfl
@[simp] theorem putDrawn_c (isn : Word) (port : Half) (s : State) : (putDrawn isn port s).block.c = { s.block.c with localPort := port, seq := isn, ack := 0 } := rfl
@[simp] theorem putDrawn_ibuf (isn : Word) (port : Half) (s : State) : (putDrawn isn port s).block.ibuf = s.block.ibuf := rfl
@[simp] theorem putDrawn_obuf (isn : Word) (port : Half) (s : State) : (putDrawn isn port s).block.obuf = s.block.obuf := rfl
@[simp] theorem putDrawn_pbuf (isn : Word) (port : Half) (s : State) : (putDrawn isn port s).block.pbuf = s.block.pbuf := rfl
@[simp] theorem putDrawn_env (isn : Word) (port : Half) (s : State) : (putDrawn isn port s).env = s.env := rfl

/-! `putNumbers` -/

@[simp] theorem putNumbers_busy (seq ack : Word) (s : State) : (putNumbers seq ack s).block.busy = s.block.busy := rfl
@[simp] theorem putNumbers_conn (seq ack : Word) (s : State) : (putNumbers seq ack s).block.conn = s.block.conn := rfl
@[simp] theorem putNumbers_err (seq ack : Word) (s : State) : (putNumbers seq ack s).block.err = s.block.err := rfl
@[simp] theorem putNumbers_a (seq ack : Word) (s : State) : (putNumbers seq ack s).block.a = s.block.a := rfl
@[simp] theorem putNumbers_ilen (seq ack : Word) (s : State) : (putNumbers seq ack s).block.ilen = s.block.ilen := rfl
@[simp] theorem putNumbers_olen (seq ack : Word) (s : State) : (putNumbers seq ack s).block.olen = s.block.olen := rfl
@[simp] theorem putNumbers_plen (seq ack : Word) (s : State) : (putNumbers seq ack s).block.plen = s.block.plen := rfl
@[simp] theorem putNumbers_rCsum (seq ack : Word) (s : State) : (putNumbers seq ack s).block.rCsum = s.block.rCsum := rfl
@[simp] theorem putNumbers_rIphl (seq ack : Word) (s : State) : (putNumbers seq ack s).block.rIphl = s.block.rIphl := rfl
@[simp] theorem putNumbers_rTcphl (seq ack : Word) (s : State) : (putNumbers seq ack s).block.rTcphl = s.block.rTcphl := rfl
@[simp] theorem putNumbers_t (seq ack : Word) (s : State) : (putNumbers seq ack s).block.t = s.block.t := rfl
@[simp] theorem putNumbers_i (seq ack : Word) (s : State) : (putNumbers seq ack s).block.i = s.block.i := rfl
@[simp] theorem putNumbers_p (seq ack : Word) (s : State) : (putNumbers seq ack s).block.p = s.block.p := rfl
@[simp] theorem putNumbers_c (seq ack : Word) (s : State) : (putNumbers seq ack s).block.c = { s.block.c with seq := seq, ack := ack } := rfl
@[simp] theorem putNumbers_ibuf (seq ack : Word) (s : State) : (putNumbers seq ack s).block.ibuf = s.block.ibuf := rfl
@[simp] theorem putNumbers_obuf (seq ack : Word) (s : State) : (putNumbers seq ack s).block.obuf = s.block.obuf := rfl
@[simp] theorem putNumbers_pbuf (seq ack : Word) (s : State) : (putNumbers seq ack s).block.pbuf = s.block.pbuf := rfl
@[simp] theorem putNumbers_env (seq ack : Word) (s : State) : (putNumbers seq ack s).env = s.env := rfl

/-! `putTimer` -/

@[simp] theorem putTimer_busy (v : BitVec 3) (s : State) : (putTimer v s).block.busy = s.block.busy := rfl
@[simp] theorem putTimer_conn (v : BitVec 3) (s : State) : (putTimer v s).block.conn = s.block.conn := rfl
@[simp] theorem putTimer_err (v : BitVec 3) (s : State) : (putTimer v s).block.err = s.block.err := rfl
@[simp] theorem putTimer_a (v : BitVec 3) (s : State) : (putTimer v s).block.a = s.block.a := rfl
@[simp] theorem putTimer_ilen (v : BitVec 3) (s : State) : (putTimer v s).block.ilen = s.block.ilen := rfl
@[simp] theorem putTimer_olen (v : BitVec 3) (s : State) : (putTimer v s).block.olen = s.block.olen := rfl
@[simp] theorem putTimer_plen (v : BitVec 3) (s : State) : (putTimer v s).block.plen = s.block.plen := rfl
@[simp] theorem putTimer_rCsum (v : BitVec 3) (s : State) : (putTimer v s).block.rCsum = s.block.rCsum := rfl
@[simp] theorem putTimer_rIphl (v : BitVec 3) (s : State) : (putTimer v s).block.rIphl = s.block.rIphl := rfl
@[simp] theorem putTimer_rTcphl (v : BitVec 3) (s : State) : (putTimer v s).block.rTcphl = s.block.rTcphl := rfl
@[simp] theorem putTimer_t (v : BitVec 3) (s : State) : (putTimer v s).block.t = s.block.t := rfl
@[simp] theorem putTimer_i (v : BitVec 3) (s : State) : (putTimer v s).block.i = s.block.i := rfl
@[simp] theorem putTimer_p (v : BitVec 3) (s : State) : (putTimer v s).block.p = s.block.p := rfl
@[simp] theorem putTimer_c (v : BitVec 3) (s : State) : (putTimer v s).block.c = { s.block.c with timer := v } := rfl
@[simp] theorem putTimer_ibuf (v : BitVec 3) (s : State) : (putTimer v s).block.ibuf = s.block.ibuf := rfl
@[simp] theorem putTimer_obuf (v : BitVec 3) (s : State) : (putTimer v s).block.obuf = s.block.obuf := rfl
@[simp] theorem putTimer_pbuf (v : BitVec 3) (s : State) : (putTimer v s).block.pbuf = s.block.pbuf := rfl
@[simp] theorem putTimer_env (v : BitVec 3) (s : State) : (putTimer v s).env = s.env := rfl

/-! `setEvents` -/

@[simp] theorem setEvents_block (rest : List Event) (s : State) : (setEvents rest s).block = s.block := rfl
@[simp] theorem setEvents_events (rest : List Event) (s : State) : (setEvents rest s).env.events = rest := rfl
@[simp] theorem setEvents_draws32 (rest : List Event) (s : State) : (setEvents rest s).env.draws32 = s.env.draws32 := rfl
@[simp] theorem setEvents_draws16 (rest : List Event) (s : State) : (setEvents rest s).env.draws16 = s.env.draws16 := rfl
@[simp] theorem setEvents_sendAnswers (rest : List Event) (s : State) : (setEvents rest s).env.sendAnswers = s.env.sendAnswers := rfl
@[simp] theorem setEvents_recvAnswers (rest : List Event) (s : State) : (setEvents rest s).env.recvAnswers = s.env.recvAnswers := rfl
@[simp] theorem setEvents_portOps (rest : List Event) (s : State) : (setEvents rest s).env.portOps = s.env.portOps := rfl
@[simp] theorem setEvents_epoch (rest : List Event) (s : State) : (setEvents rest s).env.epoch = s.env.epoch := rfl
@[simp] theorem setEvents_trace (rest : List Event) (s : State) : (setEvents rest s).env.trace = s.env.trace := rfl

/-! `observe` -/

@[simp] theorem observe_block (o : Obs) (s : State) : (observe o s).block = s.block := rfl
@[simp] theorem observe_events (o : Obs) (s : State) : (observe o s).env.events = s.env.events := rfl
@[simp] theorem observe_draws32 (o : Obs) (s : State) : (observe o s).env.draws32 = s.env.draws32 := rfl
@[simp] theorem observe_draws16 (o : Obs) (s : State) : (observe o s).env.draws16 = s.env.draws16 := rfl
@[simp] theorem observe_sendAnswers (o : Obs) (s : State) : (observe o s).env.sendAnswers = s.env.sendAnswers := rfl
@[simp] theorem observe_recvAnswers (o : Obs) (s : State) : (observe o s).env.recvAnswers = s.env.recvAnswers := rfl
@[simp] theorem observe_portOps (o : Obs) (s : State) : (observe o s).env.portOps = s.env.portOps := rfl
@[simp] theorem observe_epoch (o : Obs) (s : State) : (observe o s).env.epoch = s.env.epoch := rfl
@[simp] theorem observe_trace (o : Obs) (s : State) : (observe o s).env.trace = s.env.trace ++ [o] := rfl

/-! `countPortOp` -/

@[simp] theorem countPortOp_block (o : Obs) (s : State) : (countPortOp o s).block = s.block := rfl
@[simp] theorem countPortOp_events (o : Obs) (s : State) : (countPortOp o s).env.events = s.env.events := rfl
@[simp] theorem countPortOp_draws32 (o : Obs) (s : State) : (countPortOp o s).env.draws32 = s.env.draws32 := rfl
@[simp] theorem countPortOp_draws16 (o : Obs) (s : State) : (countPortOp o s).env.draws16 = s.env.draws16 := rfl
@[simp] theorem countPortOp_sendAnswers (o : Obs) (s : State) : (countPortOp o s).env.sendAnswers = s.env.sendAnswers := rfl
@[simp] theorem countPortOp_recvAnswers (o : Obs) (s : State) : (countPortOp o s).env.recvAnswers = s.env.recvAnswers := rfl
@[simp] theorem countPortOp_portOps (o : Obs) (s : State) : (countPortOp o s).env.portOps = s.env.portOps + 1 := rfl
@[simp] theorem countPortOp_epoch (o : Obs) (s : State) : (countPortOp o s).env.epoch = s.env.epoch := rfl
@[simp] theorem countPortOp_trace (o : Obs) (s : State) : (countPortOp o s).env.trace = s.env.trace ++ [o] := rfl

/-! `afterDraw32` -/

@[simp] theorem afterDraw32_block (s : State) : (afterDraw32 s).block = s.block := rfl
@[simp] theorem afterDraw32_events (s : State) : (afterDraw32 s).env.events = s.env.events := rfl
@[simp] theorem afterDraw32_draws32 (s : State) : (afterDraw32 s).env.draws32 = s.env.draws32.tail := rfl
@[simp] theorem afterDraw32_draws16 (s : State) : (afterDraw32 s).env.draws16 = s.env.draws16 := rfl
@[simp] theorem afterDraw32_sendAnswers (s : State) : (afterDraw32 s).env.sendAnswers = s.env.sendAnswers := rfl
@[simp] theorem afterDraw32_recvAnswers (s : State) : (afterDraw32 s).env.recvAnswers = s.env.recvAnswers := rfl
@[simp] theorem afterDraw32_portOps (s : State) : (afterDraw32 s).env.portOps = s.env.portOps + 1 := rfl
@[simp] theorem afterDraw32_epoch (s : State) : (afterDraw32 s).env.epoch = s.env.epoch := rfl
@[simp] theorem afterDraw32_trace (s : State) : (afterDraw32 s).env.trace = s.env.trace ++ [.drew32 (draw32 s)] := rfl

/-! `afterDraw16` -/

@[simp] theorem afterDraw16_block (s : State) : (afterDraw16 s).block = s.block := rfl
@[simp] theorem afterDraw16_events (s : State) : (afterDraw16 s).env.events = s.env.events := rfl
@[simp] theorem afterDraw16_draws32 (s : State) : (afterDraw16 s).env.draws32 = s.env.draws32 := rfl
@[simp] theorem afterDraw16_draws16 (s : State) : (afterDraw16 s).env.draws16 = s.env.draws16.tail := rfl
@[simp] theorem afterDraw16_sendAnswers (s : State) : (afterDraw16 s).env.sendAnswers = s.env.sendAnswers := rfl
@[simp] theorem afterDraw16_recvAnswers (s : State) : (afterDraw16 s).env.recvAnswers = s.env.recvAnswers := rfl
@[simp] theorem afterDraw16_portOps (s : State) : (afterDraw16 s).env.portOps = s.env.portOps + 1 := rfl
@[simp] theorem afterDraw16_epoch (s : State) : (afterDraw16 s).env.epoch = s.env.epoch := rfl
@[simp] theorem afterDraw16_trace (s : State) : (afterDraw16 s).env.trace = s.env.trace ++ [.drew16 (draw16 s)] := rfl

/-! `afterSend` -/

@[simp] theorem afterSend_block (pkt : List Byte) (dst : Word) (s : State) : (afterSend pkt dst s).block = s.block := rfl
@[simp] theorem afterSend_events (pkt : List Byte) (dst : Word) (s : State) : (afterSend pkt dst s).env.events = s.env.events := rfl
@[simp] theorem afterSend_draws32 (pkt : List Byte) (dst : Word) (s : State) : (afterSend pkt dst s).env.draws32 = s.env.draws32 := rfl
@[simp] theorem afterSend_draws16 (pkt : List Byte) (dst : Word) (s : State) : (afterSend pkt dst s).env.draws16 = s.env.draws16 := rfl
@[simp] theorem afterSend_sendAnswers (pkt : List Byte) (dst : Word) (s : State) : (afterSend pkt dst s).env.sendAnswers = s.env.sendAnswers.tail := rfl
@[simp] theorem afterSend_recvAnswers (pkt : List Byte) (dst : Word) (s : State) : (afterSend pkt dst s).env.recvAnswers = s.env.recvAnswers := rfl
@[simp] theorem afterSend_portOps (pkt : List Byte) (dst : Word) (s : State) : (afterSend pkt dst s).env.portOps = s.env.portOps + 1 := rfl
@[simp] theorem afterSend_epoch (pkt : List Byte) (dst : Word) (s : State) : (afterSend pkt dst s).env.epoch = s.env.epoch := rfl
@[simp] theorem afterSend_trace (pkt : List Byte) (dst : Word) (s : State) : (afterSend pkt dst s).env.trace = s.env.trace ++ [.sent pkt dst (sendAnswer s)] := rfl

/-! `afterRecv` -/

@[simp] theorem afterRecv_block (s : State) : (afterRecv s).block = s.block := rfl
@[simp] theorem afterRecv_events (s : State) : (afterRecv s).env.events = s.env.events := rfl
@[simp] theorem afterRecv_draws32 (s : State) : (afterRecv s).env.draws32 = s.env.draws32 := rfl
@[simp] theorem afterRecv_draws16 (s : State) : (afterRecv s).env.draws16 = s.env.draws16 := rfl
@[simp] theorem afterRecv_sendAnswers (s : State) : (afterRecv s).env.sendAnswers = s.env.sendAnswers := rfl
@[simp] theorem afterRecv_recvAnswers (s : State) : (afterRecv s).env.recvAnswers = s.env.recvAnswers.tail := rfl
@[simp] theorem afterRecv_portOps (s : State) : (afterRecv s).env.portOps = s.env.portOps + 1 := rfl
@[simp] theorem afterRecv_epoch (s : State) : (afterRecv s).env.epoch = s.env.epoch := rfl
@[simp] theorem afterRecv_trace (s : State) : (afterRecv s).env.trace = s.env.trace ++ [.polled rxMax (recvAnswer s)] := rfl

/-! `resetBlock` -/

@[simp] theorem resetBlock_block (s : State) : (resetBlock s).block = Block.reset := rfl
@[simp] theorem resetBlock_events (s : State) : (resetBlock s).env.events = s.env.events := rfl
@[simp] theorem resetBlock_draws32 (s : State) : (resetBlock s).env.draws32 = s.env.draws32 := rfl
@[simp] theorem resetBlock_draws16 (s : State) : (resetBlock s).env.draws16 = s.env.draws16 := rfl
@[simp] theorem resetBlock_sendAnswers (s : State) : (resetBlock s).env.sendAnswers = s.env.sendAnswers := rfl
@[simp] theorem resetBlock_recvAnswers (s : State) : (resetBlock s).env.recvAnswers = s.env.recvAnswers := rfl
@[simp] theorem resetBlock_portOps (s : State) : (resetBlock s).env.portOps = s.env.portOps := rfl
@[simp] theorem resetBlock_epoch (s : State) : (resetBlock s).env.epoch = s.env.epoch + 1 := rfl
@[simp] theorem resetBlock_trace (s : State) : (resetBlock s).env.trace = s.env.trace := rfl

end Sys2Proof.Machine
end

