-- ==== Sys2Proof/Laws/Ops.lean ====
section
/-! SUPPORT. What the shared operations do to the bytes of the buffers, and what each can do at all: cited instead of unfolding them. -/

namespace Sys2Proof.Machine

/-- A byte depends only on its buffer and on the number of the last reset. -/
theorem readByte_congr {s t : State} {b : Buf} (hb : t.block.buf b = s.block.buf b) (he : t.env.epoch = s.env.epoch) (k : Nat) :
    t.readByte b k = s.readByte b k := by
  simp [State.readByte, hb, he]

theorem slice_congr {s t : State} {b : Buf} (hb : t.block.buf b = s.block.buf b) (he : t.env.epoch = s.env.epoch) (off n : Nat) :
    t.slice b off n = s.slice b off n := by
  simp [State.slice, readByte_congr hb he]

@[simp] theorem slice_length (s : State) (b : Buf) (off n : Nat) : (s.slice b off n).length = n := by simp [State.slice]

@[simp] theorem slice_getElem (s : State) (b : Buf) (off n k : Nat) (h : k < (s.slice b off n).length) :
    (s.slice b off n)[k] = s.readByte b (off + k) := by simp [State.slice]

@[simp] theorem input_length (s : State) : s.input.length = s.block.ilen.toNat := by simp [State.input]

@[simp] theorem payload_length (s : State) : s.payload.length = s.block.plen.toNat := by simp [State.payload]

@[simp] theorem readByte_finish (s : State) (b : Buf) (k : Nat) : (finish s).readByte b k = s.readByte b k := by cases b <;> rfl

@[simp] theorem readByte_raise (e : Err) (s : State) (b : Buf) (k : Nat) : (raise e s).readByte b k = s.readByte b k := by
  cases b <;> rfl

@[simp] theorem readByte_putCsum (v : Half) (s : State) (b : Buf) (k : Nat) : (putCsum v s).readByte b k = s.readByte b k := by
  cases b <;> rfl

@[simp] theorem readByte_putTcp (f : TcpHeader) (s : State) (b : Buf) (k : Nat) : (putTcp f s).readByte b k = s.readByte b k := by
  cases b <;> rfl

@[simp] theorem readByte_putIp (g : IpHeader) (s : State) (b : Buf) (k : Nat) : (putIp g s).readByte b k = s.readByte b k := by
  cases b <;> rfl

@[simp] theorem readByte_putParsed (r : Option ParsedPacket) (s : State) (b : Buf) (k : Nat) :
    (putParsed r s).readByte b k = s.readByte b k := by cases b <;> rfl

@[simp] theorem readByte_putConn (v : Conn) (s : State) (b : Buf) (k : Nat) : (putConn v s).readByte b k = s.readByte b k := by
  cases b <;> rfl

@[simp] theorem readByte_putNumbers (seq ack : Word) (s : State) (b : Buf) (k : Nat) :
    (putNumbers seq ack s).readByte b k = s.readByte b k := by cases b <;> rfl

@[simp] theorem readByte_putTimer (v : BitVec 3) (s : State) (b : Buf) (k : Nat) : (putTimer v s).readByte b k = s.readByte b k := by
  cases b <;> rfl

@[simp] theorem readByte_enterWait (s : State) (b : Buf) (k : Nat) : (enterWait s).readByte b k = s.readByte b k := by cases b <;> rfl

@[simp] theorem readByte_leaveWait (s : State) (b : Buf) (k : Nat) : (leaveWait s).readByte b k = s.readByte b k := by cases b <;> rfl

@[simp] theorem readByte_afterSend (pkt : List Byte) (dst : Word) (s : State) (b : Buf) (k : Nat) :
    (afterSend pkt dst s).readByte b k = s.readByte b k := by cases b <;> rfl

@[simp] theorem readByte_drawn (s : State) (b : Buf) (k : Nat) : (drawn s).readByte b k = s.readByte b k := by cases b <;> rfl

@[simp] theorem readByte_afterRecv (s : State) (b : Buf) (k : Nat) : (afterRecv s).readByte b k = s.readByte b k := by cases b <;> rfl

/-- `OBUF[0:n] <- b`: below `n` OBUF reads as `b`. -/
theorem readByte_putObuf_lt (b : List Byte) (s : State) {k : Nat} (h : k < b.length) : (putObuf b s).readByte .obuf k = b[k] := by
  simp [State.readByte, Block.buf, Memory.read_writeFront_lt _ b h]

/-- `OBUF[0:n] <- b`: at and above `n` OBUF reads as before. -/
theorem readByte_putObuf_ge (b : List Byte) (s : State) {k : Nat} (h : b.length ≤ k) :
    (putObuf b s).readByte .obuf k = s.readByte .obuf k := by
  simp [State.readByte, Block.buf, Memory.read_writeFront_ge _ b h]

/-- `OBUF[0:n] <- b` leaves the other buffers alone. -/
theorem readByte_putObuf_other (b : List Byte) (s : State) {buf : Buf} (h : buf ≠ .obuf) (k : Nat) :
    (putObuf b s).readByte buf k = s.readByte buf k := by
  cases buf <;> first | rfl | contradiction

/-- `IBUF[0:n] <- b`: below `n` IBUF reads as `b`. -/
theorem readByte_putIbuf_lt (b : List Byte) (s : State) {k : Nat} (h : k < b.length) : (putIbuf b s).readByte .ibuf k = b[k] := by
  simp [State.readByte, Block.buf, Memory.read_writeFront_lt _ b h]

/-- `IBUF[0:n] <- b`: at and above `n` IBUF reads as before. -/
theorem readByte_putIbuf_ge (b : List Byte) (s : State) {k : Nat} (h : b.length ≤ k) :
    (putIbuf b s).readByte .ibuf k = s.readByte .ibuf k := by
  simp [State.readByte, Block.buf, Memory.read_writeFront_ge _ b h]

/-- `IBUF[0:n] <- b` leaves the other buffers alone. -/
theorem readByte_putIbuf_other (b : List Byte) (s : State) {buf : Buf} (h : buf ≠ .ibuf) (k : Nat) :
    (putIbuf b s).readByte buf k = s.readByte buf k := by
  cases buf <;> first | rfl | contradiction

/-- What a transmission does: OBUF and OLEN hold the packet, and one send to C_REMOTE_IP is shown with its answer. -/
theorem transmit_eq (pkt : List Byte) (s : State) :
    transmit pkt s = afterSend pkt s.block.c.remoteIp (putObuf pkt s) := rfl

/-- What writing a packet to OBUF does not change: the transport's answer to the send. -/
@[simp] theorem sendAnswer_putObuf (b : List Byte) (s : State) : sendAnswer (putObuf b s) = sendAnswer s := rfl

/-- A receive answers at most `RX_MAX` bytes. -/
theorem recvAnswer_bytes_length {s : State} {b : List Byte} (h : recvAnswer s = .bytes b) : b.length ≤ rxMax := by
  have key : ∀ r, limitAnswer r = .bytes b → b.length ≤ rxMax := by
    intro r hr
    cases r with
    | bytes x => simp only [limitAnswer, RecvAnswer.bytes.injEq] at hr; simp [← hr]
    | timeout => simp [limitAnswer] at hr
    | error => simp [limitAnswer] at hr
  unfold recvAnswer at h
  split at h <;> exact key _ h

/-- A command that ends in an error changes nothing after the `raise` but ERR and BUSY. -/
theorem raise_eq (e : Err) (s : State) : raise e s = { s with block := { s.block with err := e, busy := false } } := rfl

/-- Everything a CONNECT can do: be refused, fail on its send, or wait. -/
theorem execConnect_cases {s t : State} (h : execConnect s = .next t) :
    (s.block.conn ≠ .closed ∧ t = raise .illegalCommand s)
    ∨ (s.block.conn = .closed ∧ sendAnswer (drawn s) = .error ∧ t = raise .transportError (transmit (synPacket (drawn s)) (drawn s)))
    ∨ (s.block.conn = .closed ∧ sendAnswer (drawn s) = .ok
        ∧ t = enterWait (putTimer hsTimeout (putConn .synSent (transmit (synPacket (drawn s)) (drawn s))))) := by
  simp only [execConnect, Host.Outcome.next.injEq] at h
  split at h
  · rename_i hc
    cases ha : sendAnswer (drawn s) <;> simp [openConnection, ha] at h <;> simp [hc, h]
  · rename_i hc
    exact .inl ⟨hc, h.symm⟩

/-- Everything a SEND can do. -/
theorem execSend_cases {s t : State} (h : execSend s = .next t) :
    (s.block.conn ≠ .established ∧ t = raise .notConnected s)
    ∨ (s.block.conn = .established ∧ 65535 < 40 + s.block.plen.toNat ∧ t = raise .badLength s)
    ∨ (s.block.conn = .established ∧ 40 + s.block.plen.toNat ≤ 65535 ∧ sendAnswer s = .error
        ∧ t = raise .transportError (transmit (dataPacket s) s))
    ∨ (s.block.conn = .established ∧ 40 + s.block.plen.toNat ≤ 65535 ∧ sendAnswer s = .ok
        ∧ t = finish (advanceSeq (transmit (dataPacket s) s))) := by
  simp only [execSend, Host.Outcome.next.injEq] at h
  by_cases hc : s.block.conn = .established
  · rw [if_neg (by simpa using hc)] at h
    by_cases hl : ipHdrBytes + tcpHdrBytes + s.block.plen.toNat > lengthFieldMax
    · rw [if_pos hl] at h
      simp only [ipHdrBytes, tcpHdrBytes, lengthFieldMax] at hl
      exact .inr (.inl ⟨hc, by omega, h.symm⟩)
    · rw [if_neg hl] at h
      simp only [ipHdrBytes, tcpHdrBytes, lengthFieldMax] at hl
      cases ha : sendAnswer s <;> simp [sendData, ha] at h
      · exact .inr (.inr (.inr ⟨hc, by omega, rfl, h.symm⟩))
      · exact .inr (.inr (.inl ⟨hc, by omega, rfl, h.symm⟩))
  · rw [if_pos (by simpa using hc)] at h
    exact .inl ⟨hc, h.symm⟩

/-- Everything a receive step can do: nothing but the poll, an error, keep and ignore the bytes, or keep and accept them. -/
theorem receiveStep_cases (s : State) :
    (recvAnswer s = .timeout ∧ receiveStep s = afterRecv s)
    ∨ (recvAnswer s = .error ∧ receiveStep s = raise .transportError (afterRecv s))
    ∨ (∃ b, recvAnswer s = .bytes b ∧ receiveStep s = putParsed (parse b) (putIbuf b (afterRecv s)))
    ∨ (∃ b p, recvAnswer s = .bytes b ∧ parse b = some p ∧ matchesFlow s.block.c p = true ∧ isSynAck p.flags = true
        ∧ receiveStep s = accept p (putParsed (some p) (putIbuf b (afterRecv s)))) := by
  cases ha : recvAnswer s with
  | timeout => simp [receiveStep, ha]
  | error => simp [receiveStep, ha]
  | bytes b =>
    right; right
    cases hp : parse b with
    | none => exact .inl ⟨b, rfl, by simp [receiveStep, ha, hp, judge]⟩
    | some p =>
      by_cases hm : (matchesFlow s.block.c p && isSynAck p.flags) = true
      · refine .inr ⟨b, p, rfl, hp, ?_⟩
        have hm' := hm
        simp only [Bool.and_eq_true] at hm'
        exact ⟨hm'.1, hm'.2, by simp [receiveStep, ha, hp, judge, hm]⟩
      · exact .inl ⟨b, rfl, by simp [receiveStep, ha, hp, judge, hm]⟩

/-- Everything an acceptance can do. -/
theorem accept_cases (p : ParsedPacket) (s : State) :
    (sendAnswer (acceptNumbers p s) = .error
      ∧ accept p s = raise .transportError (transmit (ackPacket (acceptNumbers p s)) (acceptNumbers p s)))
    ∨ (sendAnswer (acceptNumbers p s) = .ok
      ∧ accept p s = finish (leaveWait (putConn .established (transmit (ackPacket (acceptNumbers p s)) (acceptNumbers p s))))) := by
  cases ha : sendAnswer (acceptNumbers p s) <;> simp [accept, ha]

end Sys2Proof.Machine
end

