-- ==== Sys2Proof/Laws/Codec.lean ====
section
/-! SUPPORT. The lengths of what the codec and the builder encode, and reading back what `be16` and `be32` write: the facts that the
round trips and the header layouts rest on. -/

namespace Sys2Proof.Machine

@[simp] theorem be16_length (v : Half) : (be16 v).length = 2 := rfl

@[simp] theorem be32_length (v : Word) : (be32 v).length = 4 := rfl

@[simp] theorem pseudoHeader_length (src dst : Word) (proto : Byte) (n : Half) : (pseudoHeader src dst proto n).length = 12 := rfl

@[simp] theorem encodeTcp_length (f : TcpHeader) : (encodeTcp f).length = 20 := rfl

@[simp] theorem encodeIp_length (g : IpHeader) : (encodeIp g).length = 20 := rfl

@[simp] theorem buildSegment_length (f : TcpHeader) (d : List Byte) (src dst : Word) :
    (buildSegment f d src dst).length = 20 + d.length := by simp [buildSegment]

@[simp] theorem buildIpHeader_length (n : Nat) (src dst : Word) (id : Half) : (buildIpHeader n src dst id).length = 20 := rfl

@[simp] theorem buildPacket_length (f : TcpHeader) (d : List Byte) (src dst : Word) (id : Half) :
    (buildPacket f d src dst id).length = 40 + d.length := by simp [buildPacket]; omega

@[simp] theorem ctlPacket_length (c : ConnectionFile) (seq ack : Word) (flags : BitVec 6) (d : List Byte) :
    (ctlPacket c seq ack flags d).length = 40 + d.length := by simp [ctlPacket]

/-- The bytes of a number, most significant first. -/
theorem be16_eq (v : Half) : be16 v = [BitVec.ofNat 8 (v.toNat / 2 ^ 8), BitVec.ofNat 8 v.toNat] := by
  simp only [be16, List.cons.injEq, and_true]
  constructor <;> apply BitVec.eq_of_toNat_eq <;> simp [BitVec.extractLsb'_toNat, Nat.shiftRight_eq_div_pow]

theorem be32_eq (v : Word) : be32 v = [BitVec.ofNat 8 (v.toNat / 2 ^ 24), BitVec.ofNat 8 (v.toNat / 2 ^ 16),
    BitVec.ofNat 8 (v.toNat / 2 ^ 8), BitVec.ofNat 8 v.toNat] := by
  simp only [be32, List.cons.injEq, and_true]
  refine ⟨?_, ?_, ?_, ?_⟩ <;> apply BitVec.eq_of_toNat_eq <;> simp [BitVec.extractLsb'_toNat, Nat.shiftRight_eq_div_pow]

/-- A 16-bit number is read as its two bytes say. -/
theorem be16At_toNat (b : List Byte) (k : Nat) :
    (be16At b k).toNat = (byteAt b k).toNat * 2 ^ 8 + (byteAt b (k + 1)).toNat := by
  simp only [be16At, BitVec.toNat_ofNat]
  have h0 := (byteAt b k).isLt
  have h1 := (byteAt b (k + 1)).isLt
  omega

/-- A 32-bit number is read as its four bytes say. -/
theorem be32At_toNat (b : List Byte) (k : Nat) :
    (be32At b k).toNat = (byteAt b k).toNat * 2 ^ 24 + (byteAt b (k + 1)).toNat * 2 ^ 16 + (byteAt b (k + 2)).toNat * 2 ^ 8
      + (byteAt b (k + 3)).toNat := by
  simp only [be32At, BitVec.toNat_ofNat]
  have h0 := (byteAt b k).isLt
  have h1 := (byteAt b (k + 1)).isLt
  have h2 := (byteAt b (k + 2)).isLt
  have h3 := (byteAt b (k + 3)).isLt
  omega

/-- Reading a 16-bit number behind any prefix gives back what `be16` wrote there. -/
theorem be16At_be16 (pre post : List Byte) (v : Half) : be16At (pre ++ be16 v ++ post) pre.length = v := by
  apply BitVec.eq_of_toNat_eq
  rw [be16At_toNat]
  simp [byteAt, be16_eq]
  have := v.isLt
  omega

/-- Reading a 32-bit number behind any prefix gives back what `be32` wrote there. -/
theorem be32At_be32 (pre post : List Byte) (v : Word) : be32At (pre ++ be32 v ++ post) pre.length = v := by
  apply BitVec.eq_of_toNat_eq
  rw [be32At_toNat]
  simp [byteAt, be32_eq]
  have := v.isLt
  omega

/-- Writing what was read gives back the two bytes. -/
theorem be16_be16At (b : List Byte) (k : Nat) : be16 (be16At b k) = [byteAt b k, byteAt b (k + 1)] := by
  rw [be16_eq, be16At_toNat]
  have h0 := (byteAt b k).isLt
  have h1 := (byteAt b (k + 1)).isLt
  simp only [List.cons.injEq, and_true]
  constructor <;> apply BitVec.eq_of_toNat_eq <;> simp only [BitVec.toNat_ofNat] <;> omega

/-- Writing what was read gives back the four bytes. -/
theorem be32_be32At (b : List Byte) (k : Nat) :
    be32 (be32At b k) = [byteAt b k, byteAt b (k + 1), byteAt b (k + 2), byteAt b (k + 3)] := by
  rw [be32_eq, be32At_toNat]
  have h0 := (byteAt b k).isLt
  have h1 := (byteAt b (k + 1)).isLt
  have h2 := (byteAt b (k + 2)).isLt
  have h3 := (byteAt b (k + 3)).isLt
  simp only [List.cons.injEq, and_true]
  refine ⟨?_, ?_, ?_, ?_⟩ <;> apply BitVec.eq_of_toNat_eq <;> simp only [BitVec.toNat_ofNat] <;> omega

@[simp] theorem flagsOfByte_flagByte (v : BitVec 6) : flagsOfByte (flagByte v) = v := by
  ext i hi
  simp [flagsOfByte, flagByte]

@[simp] theorem offsetOfByte_offsetByte (v : BitVec 4) : offsetOfByte (offsetByte v) = v := by
  revert v; decide

@[simp] theorem versionOfByte_versionByte (v w : BitVec 4) : versionOfByte (versionByte v w) = v := by
  revert v w; decide

@[simp] theorem ihlOfByte_versionByte (v w : BitVec 4) : ihlOfByte (versionByte v w) = w := by
  revert v w; decide

/-- The first 20 bytes of a long enough sequence, named. -/
theorem take20_eq (b : List Byte) (h : 20 ≤ b.length) : b.take 20 = (List.range 20).map (byteAt b) := by
  apply List.ext_getElem
  · simp; omega
  · intro k h1 h2
    have hk : k < b.length := by simp at h1; omega
    simp [byteAt, List.getD_eq_getElem?_getD, hk]

end Sys2Proof.Machine
end

