-- ==== Sys2Proof/Laws/Exec.lean ====
section
/-! SUPPORT. What each command with a test before its effect answers on either side of the test: cited instead of unfolding it. -/

namespace Sys2Proof.Machine

theorem decodeTcp_of_short {b : List Byte} (h : b.length < 20) : decodeTcp b = none := if_pos h

theorem decodeIp_of_short {b : List Byte} (h : b.length < 20) : decodeIp b = none := if_pos h

theorem decodeTcp_of_long {b : List Byte} (h : 20 ≤ b.length) : decodeTcp b = some
    { sport := be16At b 0, dport := be16At b 2, seq := be32At b 4, ack := be32At b 8,
      doff := offsetOfByte (byteAt b 12), flags := flagsOfByte (byteAt b 13),
      win := be16At b 14, csum := be16At b 16, urg := be16At b 18 } := if_neg (by simp only [tcpHdrBytes]; omega)

theorem decodeIp_of_long {b : List Byte} (h : 20 ≤ b.length) : decodeIp b = some
    { ver := versionOfByte (byteAt b 0), ihl := ihlOfByte (byteAt b 0), tos := byteAt b 1, totlen := be16At b 2,
      id := be16At b 4, frag := be16At b 6, ttl := byteAt b 8, proto := byteAt b 9, csum := be16At b 10,
      src := be32At b 12, dst := be32At b 16 } := if_neg (by simp only [ipHdrBytes]; omega)

theorem execDecTcp_of_none {s : State} (h : decodeTcp s.input = none) : execDecTcp s = .next (raise .malformedHeader s) := by
  simp [execDecTcp, h]

theorem execDecTcp_of_some {s : State} {f : TcpHeader} (h : decodeTcp s.input = some f) :
    execDecTcp s = .next (finish (putTcp f s)) := by simp [execDecTcp, h]

theorem execDecIp_of_none {s : State} (h : decodeIp s.input = none) : execDecIp s = .next (raise .malformedHeader s) := by
  simp [execDecIp, h]

theorem execDecIp_of_some {s : State} {g : IpHeader} (h : decodeIp s.input = some g) :
    execDecIp s = .next (finish (putIp g s)) := by simp [execDecIp, h]

theorem execBuildTcp_of_gt {s : State} (h : 65515 < s.block.plen.toNat) : execBuildTcp s = .next (raise .badLength s) :=
  if_pos (by simp only [tcpHdrBytes, lengthFieldMax]; omega)

theorem execBuildTcp_of_le {s : State} (h : s.block.plen.toNat ≤ 65515) : execBuildTcp s =
    .next (finish (putCsum (segmentChecksum s.block.t s.payload s.block.a.srcIp s.block.a.dstIp)
      (putObuf (buildSegment s.block.t s.payload s.block.a.srcIp s.block.a.dstIp) s))) :=
  if_neg (by simp only [tcpHdrBytes, lengthFieldMax]; omega)

theorem execBuildIp_of_gt {s : State} (h : 65515 < s.block.a.segLen.toNat) : execBuildIp s = .next (raise .badLength s) :=
  if_pos (by simp only [ipHdrBytes, lengthFieldMax]; omega)

theorem execBuildIp_of_le {s : State} (h : s.block.a.segLen.toNat ≤ 65515) : execBuildIp s =
    .next (finish (putObuf (buildIpHeader s.block.a.segLen.toNat s.block.a.srcIp s.block.a.dstIp s.block.a.ipId) s)) :=
  if_neg (by simp only [ipHdrBytes, lengthFieldMax]; omega)

theorem execBuildPkt_of_gt {s : State} (h : 65495 < s.block.plen.toNat) : execBuildPkt s = .next (raise .badLength s) :=
  if_pos (by simp only [ipHdrBytes, tcpHdrBytes, lengthFieldMax]; omega)

theorem execBuildPkt_of_le {s : State} (h : s.block.plen.toNat ≤ 65495) : execBuildPkt s =
    .next (finish (putCsum (segmentChecksum s.block.t s.payload s.block.a.srcIp s.block.a.dstIp)
      (putObuf (buildPacket s.block.t s.payload s.block.a.srcIp s.block.a.dstIp s.block.a.ipId) s))) :=
  if_neg (by simp only [ipHdrBytes, tcpHdrBytes, lengthFieldMax]; omega)

/-- A built IPv4 header, byte by byte. -/
theorem buildIpHeader_eq (n : Nat) (src dst : Word) (id : Half) : buildIpHeader n src dst id =
    [0x45, 0x00] ++ be16 (BitVec.ofNat 16 (20 + n)) ++ be16 id ++ [0x00, 0x00, 0x40, 0x06, 0x00, 0x00] ++ be32 src ++ be32 dst := by
  have h0 : versionByte version defaultIhl = 0x45 := by decide
  have h1 : be16 0#16 = [0x00, 0x00] := by decide
  simp [buildIpHeader, builtIpHeader, encodeIp, h0, h1, buildTos, defaultTtl, protoTcp, ipHdrBytes]

/-- Everything a parse can find: no packet, or the packet whose TCP header is at the end of the IPv4 header. -/
theorem parse_cases (raw : List Byte) :
    ((raw.length < 1 ∨ raw.length < ipHeaderLength raw + 20) ∧ parse raw = none)
    ∨ (1 ≤ raw.length ∧ ipHeaderLength raw + 20 ≤ raw.length
        ∧ ∃ f, decodeTcp ((raw.drop (ipHeaderLength raw)).take 20) = some f
          ∧ parse raw = some (packetOf raw (ipHeaderLength raw) f)) := by
  by_cases h1 : raw.length < 1
  · exact .inl ⟨.inl h1, if_pos h1⟩
  · by_cases h2 : raw.length < ipHeaderLength raw + tcpHdrBytes
    · exact .inl ⟨.inr h2, by simp only [parse, if_neg h1, if_pos h2]⟩
    · refine .inr ⟨by omega, by simp only [tcpHdrBytes] at h2; omega, ?_⟩
      have hl : 20 ≤ ((raw.drop (ipHeaderLength raw)).take 20).length := by
        simp only [tcpHdrBytes] at h2
        rw [List.length_take, List.length_drop]; omega
      refine ⟨_, decodeTcp_of_long hl, ?_⟩
      rw [parse, if_neg h1, if_neg h2]
      simp only [tcpHdrBytes, decodeTcp_of_long hl, Option.map_some]

end Sys2Proof.Machine
end

