-- ==== Sys2Proof/Laws/PerInstr.lean ====
section
/-! SUPPORT. Statements made once per command, with the lemma of each command: they are about the command as syntax, its encoding. -/

namespace Sys2Proof.Laws

/-- The word a command is encoded as is well formed, and a bit of 31:8 set in it makes it ill formed (spec/30_encoding.md R95, R97). -/
def EncodedWordWellFormed.Statement (i : Instr) : Prop :=
  wordWellFormed (encode i) = true ∧ ∀ k : Fin 24, wordWellFormed (encode i ||| BitVec.twoPow 32 (8 + k.val)) = false

theorem EncodedWordWellFormed.csum : EncodedWordWellFormed.Statement .csum := by
  simp only [EncodedWordWellFormed.Statement]; decide

theorem EncodedWordWellFormed.pseudo : EncodedWordWellFormed.Statement .pseudo := by
  simp only [EncodedWordWellFormed.Statement]; decide

theorem EncodedWordWellFormed.encTcp : EncodedWordWellFormed.Statement .encTcp := by
  simp only [EncodedWordWellFormed.Statement]; decide

theorem EncodedWordWellFormed.decTcp : EncodedWordWellFormed.Statement .decTcp := by
  simp only [EncodedWordWellFormed.Statement]; decide

theorem EncodedWordWellFormed.encIp : EncodedWordWellFormed.Statement .encIp := by
  simp only [EncodedWordWellFormed.Statement]; decide

theorem EncodedWordWellFormed.decIp : EncodedWordWellFormed.Statement .decIp := by
  simp only [EncodedWordWellFormed.Statement]; decide

theorem EncodedWordWellFormed.buildTcp : EncodedWordWellFormed.Statement .buildTcp := by
  simp only [EncodedWordWellFormed.Statement]; decide

theorem EncodedWordWellFormed.buildIp : EncodedWordWellFormed.Statement .buildIp := by
  simp only [EncodedWordWellFormed.Statement]; decide

theorem EncodedWordWellFormed.buildPkt : EncodedWordWellFormed.Statement .buildPkt := by
  simp only [EncodedWordWellFormed.Statement]; decide

theorem EncodedWordWellFormed.parse : EncodedWordWellFormed.Statement .parse := by
  simp only [EncodedWordWellFormed.Statement]; decide

theorem EncodedWordWellFormed.connect : EncodedWordWellFormed.Statement .connect := by
  simp only [EncodedWordWellFormed.Statement]; decide

theorem EncodedWordWellFormed.send : EncodedWordWellFormed.Statement .send := by
  simp only [EncodedWordWellFormed.Statement]; decide

theorem EncodedWordWellFormed.init : EncodedWordWellFormed.Statement .init := by
  simp only [EncodedWordWellFormed.Statement]; decide

end Sys2Proof.Laws
end

