-- ==== Sys2Proof/Laws/Step.lean ====
section
/-! SUPPORT. Everything one step can do, and everything a command can do, said once: a proof about all steps or all commands splits on
these instead of unfolding `step` and `exec`. -/

namespace Sys2Proof.Machine

/-- A run goes on from the next state. -/
theorem run_of_next (M : Host.Core) (k : Nat) {s t : M.State} (h : M.step s = .next t) : M.run (k + 1) s = M.run k t := by
  simp only [Host.Core.run, h]

/-- Everything a step can do: nothing where no event is left, else what the event at the head of the schedule does. -/
theorem step_cases {s t : State} (h : step s = .next t) :
   (s.env.events = [] ∧ t = s)
   ∨ ∃ e rest, s.env.events = e :: rest ∧
     ((∃ n, e = .hostRead n ∧ t = hostRead n (setEvents rest s))
     ∨ (∃ b k, e = .hostBufRead b k ∧ k < bufMax ∧ t = hostBufRead b k (setEvents rest s))
     ∨ (∃ n v, e = .hostWrite n v ∧ n ≠ 0 ∧ t = hostWrite n v (setEvents rest s))
     ∨ (∃ b k v, e = .hostBufWrite b k v ∧ k < bufMax ∧ t = hostBufWrite b k v (setEvents rest s))
     ∨ (∃ w, e = .hostWrite 0 w ∧ s.block.busy = true ∧ t = setEvents rest s)
     ∨ (∃ w er, e = .hostWrite 0 w ∧ s.block.busy = false ∧ decode w = .error er ∧ t = raise .illegalCommand (setEvents rest s))
     ∨ (∃ w i, e = .hostWrite 0 w ∧ s.block.busy = false ∧ decode w = .ok i ∧ exec i (setEvents rest s) = .next t)
     ∨ (e = .rx ∧ s.block.busy = true ∧ t = receiveStep (setEvents rest s))
     ∨ (e = .rx ∧ s.block.busy = false ∧ t = setEvents rest s)
     ∨ (e = .tick ∧ s.block.busy = true ∧ t = tickStep (setEvents rest s))
     ∨ (e = .tick ∧ s.block.busy = false ∧ t = setEvents rest s)
     ∨ (e = .reset ∧ t = resetBlock (setEvents rest s))) := by
  cases he : s.env.events with
  | nil =>
    left; simp [step, nextWork, he] at h; exact ⟨rfl, h.symm⟩
  | cons e rest =>
    right; refine ⟨e, rest, rfl, ?_⟩
    cases e with
    | hostRead n => simp [step, nextWork, he, takeEvent] at h; simp [h]
    | hostBufRead b k =>
      by_cases hk : k < bufMax
      · simp [step, nextWork, he, takeEvent, hk] at h; simp [h, hk]
      · simp [step, nextWork, he, takeEvent, hk] at h
    | hostWrite n v =>
      by_cases hn : n = 0
      · subst hn
        cases hb : s.block.busy
        · cases hd : decode v with
          | ok i => simp [step, nextWork, he, takeEvent, issue, hb, hd] at h; simp [h, hd]
          | error er => simp [step, nextWork, he, takeEvent, issue, hb, hd] at h; simp [h, hd]
        · simp [step, nextWork, he, takeEvent, issue, hb] at h; simp [h]
      · simp [step, nextWork, he, takeEvent, hn] at h; simp [h, hn]
    | hostBufWrite b k v =>
      by_cases hk : k < bufMax
      · simp [step, nextWork, he, takeEvent, hk] at h; simp [h, hk]
      · simp [step, nextWork, he, takeEvent, hk] at h
    | rx =>
      cases hb : s.block.busy
      · simp [step, nextWork, he, takeEvent, hb] at h; simp [h]
      · simp [step, nextWork, he, takeEvent, hb] at h; simp [h]
    | tick =>
      cases hb : s.block.busy
      · simp [step, nextWork, he, takeEvent, hb] at h; simp [h]
      · simp [step, nextWork, he, takeEvent, hb] at h; simp [h]
    | reset => simp [step, nextWork, he, takeEvent] at h; simp [h]

/-- Everything a command can do. -/
theorem exec_cases {i : Instr} {s t : State} (h : exec i s = .next t) :
  (i = .csum ∧ t = finish (putCsum (checksum s.input) s))
  ∨ (∃ b, b.length ≤ 65535 ∧ i ∈ [Instr.pseudo, .encTcp, .encIp, .buildIp] ∧ t = finish (putObuf b s))
  ∨ (i ∈ [Instr.decTcp, .decIp] ∧ t = raise .malformedHeader s)
  ∨ (∃ f, i = .decTcp ∧ t = finish (putTcp f s))
  ∨ (∃ f, i = .decIp ∧ t = finish (putIp f s))
  ∨ (i ∈ [Instr.buildTcp, .buildIp, .buildPkt] ∧ t = raise .badLength s)
  ∨ (∃ b v, b.length ≤ 65535 ∧ i ∈ [Instr.buildTcp, .buildPkt] ∧ t = finish (putCsum v (putObuf b s)))
  ∨ (i = .parse ∧ t = finish (putParsed (parse s.input) s))
  ∨ (i = .connect ∧ s.block.conn ≠ .closed ∧ t = raise .illegalCommand s)
  ∨ (i = .connect ∧ s.block.conn = .closed ∧ t = raise .transportError (transmit (synPacket (drawn s)) (drawn s)))
  ∨ (i = .connect ∧ s.block.conn = .closed
      ∧ t = enterWait (putTimer hsTimeout (putConn .synSent (transmit (synPacket (drawn s)) (drawn s)))))
  ∨ (i = .send ∧ s.block.conn ≠ .established ∧ t = raise .notConnected s)
  ∨ (i = .send ∧ s.block.conn = .established ∧ t = raise .badLength s)
  ∨ (i = .send ∧ s.block.conn = .established ∧ 40 + s.block.plen.toNat ≤ 65535
      ∧ t = raise .transportError (transmit (dataPacket s) s))
  ∨ (i = .send ∧ s.block.conn = .established ∧ 40 + s.block.plen.toNat ≤ 65535
      ∧ t = finish (advanceSeq (transmit (dataPacket s) s)))
  ∨ (i = .init ∧ t = resetBlock s) := by
  cases i
  case csum => cases h; exact .inl ⟨rfl, rfl⟩
  case pseudo => cases h; exact .inr (.inl ⟨_, by simp, by simp, rfl⟩)
  case encTcp => cases h; exact .inr (.inl ⟨_, by simp, by simp, rfl⟩)
  case encIp => cases h; exact .inr (.inl ⟨_, by simp, by simp, rfl⟩)
  case decTcp =>
    cases hd : decodeTcp s.input with
    | none => rw [exec, execDecTcp_of_none hd] at h; cases h; simp
    | some f => rw [exec, execDecTcp_of_some hd] at h; cases h; exact .inr (.inr (.inr (.inl ⟨f, rfl, rfl⟩)))
  case decIp =>
    cases hd : decodeIp s.input with
    | none => rw [exec, execDecIp_of_none hd] at h; cases h; simp
    | some f => rw [exec, execDecIp_of_some hd] at h; cases h; exact .inr (.inr (.inr (.inr (.inl ⟨f, rfl, rfl⟩))))
  case buildTcp =>
    by_cases hl : s.block.plen.toNat ≤ 65515
    · rw [exec, execBuildTcp_of_le hl] at h; cases h
      exact .inr (.inr (.inr (.inr (.inr (.inr (.inl ⟨_, _, by simp; omega, by simp, rfl⟩))))))
    · rw [exec, execBuildTcp_of_gt (by omega)] at h; cases h; simp
  case buildIp =>
    by_cases hl : s.block.a.segLen.toNat ≤ 65515
    · rw [exec, execBuildIp_of_le hl] at h; cases h
      exact .inr (.inl ⟨_, by simp, by simp, rfl⟩)
    · rw [exec, execBuildIp_of_gt (by omega)] at h; cases h; simp
  case buildPkt =>
    by_cases hl : s.block.plen.toNat ≤ 65495
    · rw [exec, execBuildPkt_of_le hl] at h; cases h
      exact .inr (.inr (.inr (.inr (.inr (.inr (.inl ⟨_, _, by simp; omega, by simp, rfl⟩))))))
    · rw [exec, execBuildPkt_of_gt (by omega)] at h; cases h; simp
  case parse => cases h; simp
  case connect =>
    rcases execConnect_cases h with ⟨a, b⟩ | ⟨a, _, b⟩ | ⟨a, _, b⟩ <;> simp [a, b]
  case send =>
    rcases execSend_cases h with ⟨a, b⟩ | ⟨a, _, b⟩ | ⟨a, c, _, b⟩ | ⟨a, c, _, b⟩
    · simp [a, b]
    · simp [a, b]
    · iterate 13 right
      exact .inl ⟨rfl, a, c, b⟩
    · iterate 14 right
      exact .inl ⟨rfl, a, c, b⟩
  case init => cases h; simp

end Sys2Proof.Machine
end

