-- ==== Sys2Proof/Tests/Slice0.lean ====
section
/-! SUPPORT. The model's own tests. Expected values are those of spec/95_test_vectors.md (the vector is named in each comment) or of the
rule named; the theorems `witness_…` show, for each obligation with hypotheses, a state and operands that meet them. -/

namespace Sys2Proof.Tests

set_option Elab.async false

open Sys2Proof.Machine Sys2Proof.Claims

/-! ### Helpers -/

/-- The next state of an outcome, if there is one. -/
def after (o : Result) : Option State :=
  match o with
  | .next t => some t
  | .fault _ => none
  | .refused _ => none

/-- The reset state with a changed block. -/
def withBlock (f : Block → Block) : State := { State.reset with block := f Block.reset }

/-- A block with these bytes in IBUF and their number in ILEN. -/
def loadIbuf (b : List Byte) (k : Block) : Block := { k with ibuf := cellsFrom 0 b, ilen := BitVec.ofNat 16 b.length }

/-- A block with these bytes in PBUF and their number in PLEN. -/
def loadPbuf (b : List Byte) (k : Block) : Block := { k with pbuf := cellsFrom 0 b, plen := BitVec.ofNat 16 b.length }

/-- What a test looks at in OBUF: its cells, OLEN and ERR. -/
def output (o : Result) : Option (Memory × Half × Err) := (after o).map fun t => (t.block.obuf, t.block.olen, t.block.err)

/-- The output `b` of a successful command on a reset OBUF. -/
def wrote (b : List Byte) : Option (Memory × Half × Err) := some (cellsFrom 0 b, BitVec.ofNat 16 b.length, .noError)

/-! ### Well-formed words (spec/30_encoding.md R95, R97) -/

theorem test_reserved_bit_8_refused : wordWellFormed 0x00000101 = false := by decide

theorem test_reserved_bit_31_refused : wordWellFormed 0x80000010 = false := by decide

theorem test_reserved_codes_refused :
    ∀ c ∈ ([0x00, 0x07, 0x0C, 0x0F, 0x12, 0x1E, 0x20, 0xFF] : List Nat), wordWellFormed (BitVec.ofNat 32 c) = false := by decide

theorem test_assigned_codes_accepted :
    ∀ c ∈ ([0x01, 0x02, 0x03, 0x04, 0x05, 0x06, 0x08, 0x09, 0x0A, 0x0B, 0x10, 0x11, 0x1F] : List Nat),
      wordWellFormed (BitVec.ofNat 32 c) = true := by decide

/-! ### Decoding: each word written out bit by bit, bits 31:8 zero and the code of R96 in bits 7:0 -/

theorem test_decode_csum : decode 0b00000000000000000000000000000001 = .ok .csum := by rfl

theorem test_decode_pseudo : decode 0b00000000000000000000000000000010 = .ok .pseudo := by rfl

theorem test_decode_enc_tcp : decode 0b00000000000000000000000000000011 = .ok .encTcp := by rfl

theorem test_decode_dec_tcp : decode 0b00000000000000000000000000000100 = .ok .decTcp := by rfl

theorem test_decode_enc_ip : decode 0b00000000000000000000000000000101 = .ok .encIp := by rfl

theorem test_decode_dec_ip : decode 0b00000000000000000000000000000110 = .ok .decIp := by rfl

theorem test_decode_build_tcp : decode 0b00000000000000000000000000001000 = .ok .buildTcp := by rfl

theorem test_decode_build_ip : decode 0b00000000000000000000000000001001 = .ok .buildIp := by rfl

theorem test_decode_build_pkt : decode 0b00000000000000000000000000001010 = .ok .buildPkt := by rfl

theorem test_decode_parse : decode 0b00000000000000000000000000001011 = .ok .parse := by rfl

theorem test_decode_connect : decode 0b00000000000000000000000000010000 = .ok .connect := by rfl

theorem test_decode_send : decode 0b00000000000000000000000000010001 = .ok .send := by rfl

theorem test_decode_init : decode 0b00000000000000000000000000011111 = .ok .init := by rfl

/-- E3, E4: a set bit above the code. -/
theorem test_decode_reserved_bits : decode 0x00000101 = .error .reservedBits ∧ decode 0x80000010 = .error .reservedBits := ⟨rfl, rfl⟩

/-- E1, E2: unassigned codes. -/
theorem test_decode_unassigned : decode 0x00000000 = .error .unassignedCode ∧ decode 0x00000007 = .error .unassignedCode := ⟨rfl, rfl⟩

theorem test_decode_table_word : decodeTableWord 32 0x0A = some .buildPkt ∧ decodeTableWord 32 0x07 = none := ⟨rfl, rfl⟩

/-- The host's probe runs the word as the first command after reset. -/
theorem test_fetch_word_runs_csum :
    (after (step (State.reset.withFetchWord 32 0x01))).map (fun t => (t.block.rCsum, t.env.events)) = some (0xFFFF, []) := by
  decide +kernel

/-! ### The checksum engine -/

/-- K10: an odd length, the last byte is the high byte of its word. -/
theorem test_csum_odd_length :
    (after (exec .csum (withBlock (loadIbuf [0x01, 0x02, 0x03])))).map (fun t => (t.block.rCsum, t.block.ilen, t.block.err))
      = some (0xFBFD, 3, .noError) := by decide +kernel

/-- K12: the second fold is needed. -/
theorem test_csum_two_folds :
    (after (exec .csum (withBlock (loadIbuf [0xFF, 0xFF, 0xFF, 0xFF, 0xFF, 0xFF, 0x00, 0x02])))).map (fun t => t.block.rCsum)
      = some 0xFFFD := by decide +kernel

/-- Q3. -/
theorem test_pseudo_all_fields :
    output (exec .pseudo (withBlock fun k => { k with a := { k.a with dstIp := 0xFFFFFFFF, proto := 17, segLen := 65535 } }))
      = wrote [0x00, 0x00, 0x00, 0x00, 0xFF, 0xFF, 0xFF, 0xFF, 0x00, 0x11, 0xFF, 0xFF] := by decide +kernel

/-- Q4: PSEUDO right after reset, A_PROTO at its reset value 6. -/
theorem test_pseudo_after_reset : output (exec .pseudo State.reset) = wrote [0, 0, 0, 0, 0, 0, 0, 0, 0, 6, 0, 0] := by decide +kernel

/-! ### The header codec -/

/-- The fields of T1. -/
def fieldsT1 : TcpHeader :=
  { sport := 0x3039, dport := 0x0050, seq := 0x01020304, ack := 0x0A0B0C0D, doff := 5, flags := 0x12, win := 0x7210, csum := 0xBEEF,
    urg := 0 }

/-- The bytes of T1. -/
def bytesT1 : List Byte :=
  [0x30, 0x39, 0x00, 0x50, 0x01, 0x02, 0x03, 0x04, 0x0A, 0x0B, 0x0C, 0x0D, 0x50, 0x12, 0x72, 0x10, 0xBE, 0xEF, 0x00, 0x00]

/-- T1. -/
theorem test_enc_tcp_t1 : output (exec .encTcp (withBlock fun k => { k with t := fieldsT1 })) = wrote bytesT1 := by decide +kernel

/-- T2: the widest data offset and flags, and an urgent pointer. -/
theorem test_enc_tcp_t2 :
    output (exec .encTcp (withBlock fun k =>
      { k with
        t := { sport := 1, dport := 2, seq := 0xFFFFFFFF, ack := 0x80000000, doff := 15, flags := 0x3F, win := 0, csum := 0xFFFF,
               urg := 0x1234 } }))
      = wrote [0x00, 0x01, 0x00, 0x02, 0xFF, 0xFF, 0xFF, 0xFF, 0x80, 0x00, 0x00, 0x00, 0xF0, 0x3F, 0x00, 0x00, 0xFF, 0xFF, 0x12, 0x34] := by
  decide +kernel

/-- T6: the low nibble of byte 12 and bits 7:6 of byte 13 are dropped. -/
theorem test_dec_tcp_drops_reserved_bits :
    (after (exec .decTcp (withBlock (loadIbuf
        [0x30, 0x39, 0x00, 0x50, 0x01, 0x02, 0x03, 0x04, 0x0A, 0x0B, 0x0C, 0x0D, 0x5F, 0xD2, 0x72, 0x10, 0xBE, 0xEF, 0x00, 0x00])))).map
      (fun t => (t.block.t, t.block.rTcphl, t.block.err)) = some (fieldsT1, 20, .noError) := by decide +kernel

/-- T8: 19 bytes are too few, and nothing but ERR is written. -/
theorem test_dec_tcp_malformed :
    after (exec .decTcp (withBlock (loadIbuf (bytesT1.take 19))))
      = some (withBlock fun k => { loadIbuf (bytesT1.take 19) k with err := .malformedHeader }) := by decide +kernel

/-- The fields of I2. -/
def fieldsI2 : IpHeader :=
  { ver := 6, ihl := 15, tos := 0xB8, totlen := 0xFFFF, id := 0xABCD, frag := 0x4000, ttl := 1, proto := 17, csum := 0x1111,
    src := 0x0A000001, dst := 0xFFFFFFFF }

/-- The bytes of I2. -/
def bytesI2 : List Byte :=
  [0x6F, 0xB8, 0xFF, 0xFF, 0xAB, 0xCD, 0x40, 0x00, 0x01, 0x11, 0x11, 0x11, 0x0A, 0x00, 0x00, 0x01, 0xFF, 0xFF, 0xFF, 0xFF]

/-- I2. -/
theorem test_enc_ip_i2 : output (exec .encIp (withBlock fun k => { k with i := fieldsI2 })) = wrote bytesI2 := by decide +kernel

/-- I3b: ENC_IP right after reset. -/
theorem test_enc_ip_after_reset :
    output (exec .encIp State.reset) = wrote [0x45, 0, 0, 0, 0, 0, 0, 0, 0x40, 0x06, 0, 0, 0, 0, 0, 0, 0, 0, 0, 0] := by decide +kernel

/-- I5: a claimed header of 60 bytes, of which 20 are read. -/
theorem test_dec_ip_i5 :
    (after (exec .decIp (withBlock (loadIbuf bytesI2)))).map (fun t => (t.block.i, t.block.rIphl, t.block.err))
      = some (fieldsI2, 60, .noError) := by decide +kernel

/-- I7: 19 bytes are too few. -/
theorem test_dec_ip_malformed :
    after (exec .decIp (withBlock (loadIbuf (bytesI2.take 19))))
      = some (withBlock fun k => { loadIbuf (bytesI2.take 19) k with err := .malformedHeader }) := by decide +kernel

/-! ### The packet builder -/

/-- The common inputs of section 2.3, with the T fields and the payload of B2. -/
def blockB2 (k : Block) : Block :=
  { loadPbuf [0x48, 0x65, 0x6C, 0x6C, 0x6F] k with
    a := { k.a with srcIp := 0xC0A80001, dstIp := 0xC0A80002, ipId := 0x1234 },
    t := { sport := 0xC000, dport := 80, seq := 1001, ack := 2001, doff := 5, flags := 0x18, win := 0x2000, csum := 0xDEAD, urg := 0 } }

/-- The segment of B2. -/
def segmentB2 : List Byte :=
  [0xC0, 0x00, 0x00, 0x50, 0x00, 0x00, 0x03, 0xE9, 0x00, 0x00, 0x07, 0xD1, 0x50, 0x18, 0x20, 0x00, 0x1E, 0x97, 0x00, 0x00,
   0x48, 0x65, 0x6C, 0x6C, 0x6F]

/-- The IPv4 header of B7. -/
def headerB7 : List Byte :=
  [0x45, 0x00, 0x00, 0x2D, 0x12, 0x34, 0x00, 0x00, 0x40, 0x06, 0x00, 0x00, 0xC0, 0xA8, 0x00, 0x01, 0xC0, 0xA8, 0x00, 0x02]

/-- B2: an odd payload, not padded in the output. -/
theorem test_build_tcp_b2 : output (exec .buildTcp (withBlock blockB2)) = wrote segmentB2 := by decide +kernel

/-- B2 with the checksum in R_CSUM and T_CSUM untouched; B5b: 65516 bytes are refused and nothing but ERR is written. -/
theorem test_build_tcp_results :
    (after (exec .buildTcp (withBlock blockB2))).map (fun t => (t.block.rCsum, t.block.t.csum)) = some (0x1E97, 0xDEAD)
    ∧ after (exec .buildTcp (withBlock fun k => { k with plen := 65516 }))
      = some (withBlock fun k => { k with plen := 65516, err := .badLength }) := by decide +kernel

/-- B11: the longest total length, with identification 0. -/
theorem test_build_ip_b11 :
    output (exec .buildIp (withBlock fun k => { k with a := { k.a with srcIp := 0xC0A80001, dstIp := 0xC0A80002, segLen := 65515 } }))
      = wrote [0x45, 0x00, 0xFF, 0xFF, 0x00, 0x00, 0x00, 0x00, 0x40, 0x06, 0x00, 0x00, 0xC0, 0xA8, 0x00, 0x01, 0xC0, 0xA8, 0x00, 0x02] := by
  decide +kernel

/-- B12. -/
theorem test_build_ip_bad_length :
    after (exec .buildIp (withBlock fun k => { k with a := { k.a with segLen := 65516 } }))
      = some (withBlock fun k => { k with a := { k.a with segLen := 65516 }, err := .badLength }) := by decide +kernel

/-- B7. -/
theorem test_build_pkt_b7 : output (exec .buildPkt (withBlock blockB2)) = wrote (headerB7 ++ segmentB2) := by decide +kernel

/-- B14. -/
theorem test_build_pkt_bad_length :
    after (exec .buildPkt (withBlock fun k => { k with plen := 65496 }))
      = some (withBlock fun k => { k with plen := 65496, err := .badLength }) := by decide +kernel

/-! ### The packet parser -/

/-- X3: a header of 24 bytes, its options skipped. -/
theorem test_parse_x3 :
    (after (exec .parse (withBlock (loadIbuf (0x46 :: headerB7.tail ++ [0x01, 0x01, 0x01, 0x00] ++ segmentB2))))).map (fun t => t.block.p)
      = some { valid := 1, sport := 49152, dport := 80, seq := 1001, ack := 2001, flags := 0x18, iphl := 24, tcphl := 20, payoff := 44,
               paylen := 5 } := by decide +kernel

/-- X13: header length 0, and a data offset beyond the end. -/
theorem test_parse_x13 :
    (after (exec .parse (withBlock (loadIbuf (0x40 :: headerB7.tail ++ segmentB2))))).map (fun t => t.block.p)
      = some { valid := 1, sport := 16384, dport := 45, seq := 0x12340000, ack := 0x40060000, flags := 0x28, iphl := 0, tcphl := 48,
               payoff := 45, paylen := 0 } := by decide +kernel

/-! ### The handshake controller -/

/-- The configuration of section 2.5. -/
def configH (k : Block) : Block :=
  { k with c := { k.c with localIp := 0xC0A80001, remoteIp := 0xC0A80002, remotePort := 80, window := 0x2000, ipId := 0x1234 } }

/-- The state before H1, with the draws and the answers to the sends. -/
def beforeH1 (answers : List SendAnswer) : State where
  block := configH Block.reset
  env := { Environment.reset with draws32 := [0x12345678], draws16 := [0xC000], sendAnswers := answers }

/-- The SYN of H1. -/
def bytesH1 : List Byte :=
  [0x45, 0x00, 0x00, 0x28, 0x12, 0x34, 0x00, 0x00, 0x40, 0x06, 0x00, 0x00, 0xC0, 0xA8, 0x00, 0x01, 0xC0, 0xA8, 0x00, 0x02, 0xC0, 0x00,
   0x00, 0x50, 0x12, 0x34, 0x56, 0x78, 0x00, 0x00, 0x00, 0x00, 0x50, 0x02, 0x20, 0x00, 0xE5, 0x91, 0x00, 0x00]

/-- H1. -/
theorem test_connect_h1 :
    (after (exec .connect (beforeH1 [.ok]))).map (fun t => (statusWord t.block, t.block.c, t.block.olen, t.env.trace))
      = some (3, { localIp := 0xC0A80001, remoteIp := 0xC0A80002, remotePort := 80, localPort := 0xC000, seq := 0x12345678, ack := 0,
                   window := 0x2000, ipId := 0x1234, timer := 5 }, 40,
              [.drew32 0x12345678, .drew16 0xC000, .sent bytesH1 0xC0A80002 .ok]) := by decide +kernel

/-- H16: the send of the SYN fails; the registers drawn stay, the connection stays closed and C_TIMER is not loaded. -/
theorem test_connect_h16 :
    (after (exec .connect (beforeH1 [.error]))).map
        (fun t => (statusWord t.block, t.block.err, t.block.obuf)) = some (0, .transportError, cellsFrom 0 bytesH1)
    ∧ (after (exec .connect (beforeH1 [.error]))).map (fun t => (t.block.c.localPort, t.block.c.seq, t.block.c.timer))
      = some (0xC000, 0x12345678, 0) := by decide +kernel

/-- The state after H1, with these answers to come and these events. -/
def afterH1 (events : List Event) (received : List RecvAnswer) (answers : List SendAnswer) : State where
  block :=
    { configH Block.reset with
      busy := true, conn := .synSent, olen := 40, obuf := cellsFrom 0 bytesH1
      c := { (configH Block.reset).c with localPort := 0xC000, seq := 0x12345678, ack := 0, timer := 5 } }
  env := { Environment.reset with events := events, recvAnswers := received, sendAnswers := answers }

/-- The SYN/ACK of H2. -/
def bytesH2 : List Byte :=
  [0x45, 0x00, 0x00, 0x28, 0x00, 0x00, 0x00, 0x00, 0x40, 0x06, 0x00, 0x00, 0xC0, 0xA8, 0x00, 0x02, 0xC0, 0xA8, 0x00, 0x01, 0x00, 0x50,
   0xC0, 0x00, 0x00, 0x00, 0x03, 0xE8, 0x12, 0x34, 0x56, 0x79, 0x50, 0x12, 0xFF, 0xFF, 0x01, 0x99, 0x00, 0x00]

/-- The ACK of H3. -/
def bytesH3 : List Byte :=
  [0x45, 0x00, 0x00, 0x28, 0x12, 0x34, 0x00, 0x00, 0x40, 0x06, 0x00, 0x00, 0xC0, 0xA8, 0x00, 0x01, 0xC0, 0xA8, 0x00, 0x02, 0xC0, 0x00,
   0x00, 0x50, 0x12, 0x34, 0x56, 0x79, 0x00, 0x00, 0x03, 0xE9, 0x50, 0x10, 0x20, 0x00, 0xE1, 0x99, 0x00, 0x00]

/-- H2 and H3: the SYN/ACK is accepted and the ACK sent. -/
theorem test_receive_h2_h3 :
    (after (step (afterH1 [.rx] [.bytes bytesH2] [.ok]))).map
        (fun t => (statusWord t.block, t.block.err, (t.block.c.ack, t.block.c.seq, t.block.c.timer), t.env.trace))
      = some (4, .noError, (1001, 0x12345679, 5), [.polled 65535 (.bytes bytesH2), .sent bytesH3 0xC0A80002 .ok]) := by decide +kernel

/-- H7a: the same packet to port 0xC001 is kept and ignored. -/
theorem test_receive_h7a_ignored :
    (after (step (afterH1 [.rx] [.bytes (bytesH2.set 23 0x01)] []))).map
        (fun t => (statusWord t.block, t.block.c.ack, t.block.ilen, t.block.p.valid, t.block.p.dport))
      = some (3, 0, 40, 1, 49153) := by decide +kernel

/-- H10: the fifth tick ends the wait. -/
theorem test_tick_h10 :
    (match Host.Core.run core 5 (afterH1 [.tick, .tick, .tick, .tick, .tick] [] []) with
      | .next t => some (t.block.c.timer, statusWord t.block, t.block.err)
      | .fault _ => none
      | .refused _ => none) = some (0, 2, .handshakeTimeout) := by decide +kernel

/-- The state after H11, with PBUF = "Hello" and this answer to the next send. -/
def afterH11 (answer : SendAnswer) : State where
  block :=
    { loadPbuf [0x48, 0x65, 0x6C, 0x6C, 0x6F] (configH Block.reset) with
      conn := .established
      c := { (configH Block.reset).c with localPort := 0xC000, seq := 0xFFFFFFFE, ack := 0, timer := 5 } }
  env := { Environment.reset with sendAnswers := [answer] }

/-- H12: the data packet, and the sequence number wraps. -/
theorem test_send_h12 :
    (after (exec .send (afterH11 .ok))).map (fun t => (t.block.c.seq, t.block.err, t.block.obuf))
      = some (3, .noError, cellsFrom 0
          [0x45, 0x00, 0x00, 0x2D, 0x12, 0x34, 0x00, 0x00, 0x40, 0x06, 0x00, 0x00, 0xC0, 0xA8, 0x00, 0x01, 0xC0, 0xA8, 0x00, 0x02,
           0xC0, 0x00, 0x00, 0x50, 0xFF, 0xFF, 0xFF, 0xFE, 0x00, 0x00, 0x00, 0x00, 0x50, 0x18, 0x20, 0x00, 0x2A, 0x52, 0x00, 0x00,
           0x48, 0x65, 0x6C, 0x6C, 0x6F]) := by decide +kernel

/-- H14: NotConnected before BadLength, and nothing but ERR changes. -/
theorem test_send_h14 :
    after (exec .send (withBlock fun k => { k with plen := 65535 }))
      = some (withBlock fun k => { k with plen := 65535, err := .notConnected }) := by decide +kernel

/-- H21: INIT from the middle of a failed handshake. -/
theorem test_init_h21 : (after (exec .init (afterH1 [] [] []))).map (fun t => t.block) = some Block.reset := by decide +kernel

/-! ### The host's side -/

/-- E8: a write keeps the bits that fit. -/
theorem test_writes_truncate_e8 :
    readReg .T_DOFF (writeNumber 0x14 0x15 Block.reset) = 5 ∧ readReg .T_FLAGS (writeNumber 0x15 0xD2 Block.reset) = 0x12
    ∧ readReg .A_PROTO (writeNumber 0x06 0x106 Block.reset) = 6 ∧ readReg .T_SPORT (writeNumber 0x10 0x12345 Block.reset) = 0x2345
    ∧ readReg .ILEN (writeNumber 0x09 0x10005 Block.reset) = 5 := by decide +kernel

/-- E7, E9: read-only registers and reserved numbers ignore writes; a reserved number reads as 0. -/
theorem test_ignored_writes_e7_e9 :
    (∀ n ∈ [0x01, 0x02, 0x0A, 0x44, 0x30, 0x03, 0x0F, 0x19, 0x2B, 0x3A, 0x49], writeNumber n 0xFFFFFFFF Block.reset = Block.reset)
    ∧ (∀ n ∈ [0x03, 0x0F, 0x19, 0x2B, 0x3A, 0x49], readNumber n Block.reset = 0) := by decide +kernel

/-- E10: during the wait a command word is dropped, an undecodable one too, without an error. -/
theorem test_busy_drops_e10 :
    after (step (afterH1 [.hostWrite 0 0x1F] [] [])) = some (afterH1 [] [] [])
    ∧ after (step (afterH1 [.hostWrite 0 0x00] [] [])) = some (afterH1 [] [] []) := by decide +kernel

/-- R56: there is no buffer byte 65535. -/
theorem test_buffer_end :
    isNext (step { State.reset with env := { Environment.reset with events := [.hostBufWrite .ibuf 65534 0xAB] } }) = true
    ∧ isNext (step { State.reset with env := { Environment.reset with events := [.hostBufWrite .ibuf 65535 0xAB] } }) = false := by
  decide +kernel

/-! ### Witnesses: the hypotheses of the obligations can be met -/

/-- A state in IDLE with this event next. -/
def idleWith (e : Event) : State := { State.reset with env := { Environment.reset with events := [e] } }

/-- IllegalWordsChangeOnlyErr: a reserved code, and a bit of 31:8 set. -/
theorem witness_illegal_words :
    (idleWith (.hostWrite 0 0x0C)).env.events = .hostWrite 0 0x0C :: [] ∧ (idleWith (.hostWrite 0 0x0C)).block.busy = false
    ∧ codeReserved ((0x0C : Word).toNat % 256) = true
    ∧ (idleWith (.hostWrite 0 0x101)).env.events = .hostWrite 0 0x101 :: [] ∧ (0x101 : Word).toNat / 256 ≠ 0 := by decide +kernel

/-- StepRunsTheDecodedCommand: a decodable word in IDLE, and an empty schedule. -/
theorem witness_step_runs :
    (idleWith (.hostWrite 0 0x1F)).env.events = .hostWrite 0 0x1F :: [] ∧ (idleWith (.hostWrite 0 0x1F)).block.busy = false
    ∧ decode 0x1F = .ok .init ∧ State.reset.env.events = [] := ⟨rfl, rfl, rfl, rfl⟩

/-- ChecksumFacts: words in another order. -/
theorem witness_checksum_facts : (words16 (padEven [1, 2, 3, 4])).Perm (words16 (padEven [3, 4, 1, 2])) := by decide

/-- ChecksumAccumulatorFits: the longest input, and one that needs the second fold (K12). -/
theorem witness_checksum_accumulator :
    (List.replicate (12 + 65535) (0xFF : Byte)).length ≤ 12 + 65535
    ∧ foldOnce (rawSum [0xFF, 0xFF, 0xFF, 0xFF, 0xFF, 0xFF, 0x00, 0x02]) / 65536 ≠ 0 :=
  ⟨by rw [List.length_replicate], by decide +kernel⟩

/-- ChecksumVerifiesItself: a field at index 28. -/
theorem witness_checksum_verifies : (pseudoHeader 1 2 6 20 ++ (encodeTcp fieldsT1).take 16).length % 2 = 0 := by decide +kernel

/-- BuiltSegmentsVerify, BuildIsTwoPass: the longest payload; an index beside the checksum. -/
theorem witness_built_segments : 20 + (List.replicate 65515 (0 : Byte)).length ≤ 65535 ∧ (15 ≠ 16 ∧ 15 ≠ 17) :=
  ⟨by rw [List.length_replicate], by decide⟩

/-- CsumStoresTheChecksum: ILEN = 0. -/
theorem witness_csum : State.reset.block.ilen = 0 := rfl

/-- DecTcpLoadsTheFields, DecIpLoadsTheFields: 19 bytes and 20 bytes. -/
theorem witness_decoders :
    (withBlock fun k => { k with ilen := 19 }).block.ilen.toNat < 20 ∧ 20 ≤ (withBlock fun k => { k with ilen := 20 }).block.ilen.toNat := by
  decide

/-- The length limits of BUILD_TCP, BUILD_IP and BUILD_PKT, on both sides. -/
theorem witness_builders :
    65515 < (withBlock fun k => { k with plen := 65516 }).block.plen.toNat
    ∧ (withBlock fun k => { k with plen := 65515 }).block.plen.toNat ≤ 65515
    ∧ 65515 < (withBlock fun k => { k with a := { k.a with segLen := 65516 } }).block.a.segLen.toNat
    ∧ (withBlock fun k => { k with a := { k.a with segLen := 65515 } }).block.a.segLen.toNat ≤ 65515
    ∧ 65495 < (withBlock fun k => { k with plen := 65496 }).block.plen.toNat
    ∧ (withBlock fun k => { k with plen := 65495 }).block.plen.toNat ≤ 65495 := by decide

/-- ReservedTcpBitsIgnored: bytes that decode. -/
theorem witness_reserved_bits : decodeTcp bytesT1 = some fieldsT1 := by decide +kernel

/-- ParseFindsAPacketOrNone, ParseWritesThePFile: 20 zero bytes are a packet (X8), 19 are none (X7). -/
theorem witness_parse :
    (parse (List.replicate 20 0)).isSome = true ∧ parse (List.replicate 19 0) = none
    ∧ (parse ((withBlock (loadIbuf (List.replicate 20 0))).slice .ibuf 0 20)).isSome = true
    ∧ parse ((withBlock (loadIbuf (List.replicate 19 0))).slice .ibuf 0 19) = none := by decide +kernel

/-- ParseReadsNothingElse: two packets that differ in version, window, checksum and payload. -/
theorem witness_parse_reads :
    (headerB7 ++ segmentB2).length = (0x65 :: headerB7.tail ++ segmentB2.take 14 ++ List.replicate 11 0).length
    ∧ (byteAt (headerB7 ++ segmentB2) 0).toNat % 16 = (byteAt (0x65 :: headerB7.tail ++ segmentB2.take 14 ++ List.replicate 11 0) 0).toNat % 16
    ∧ (∀ k, k < 14 → byteAt (headerB7 ++ segmentB2) (20 + k)
        = byteAt (0x65 :: headerB7.tail ++ segmentB2.take 14 ++ List.replicate 11 0) (20 + k)) := by decide +kernel

/-- ParseInvertsBuild: the longest payload; data offsets 5, 4 and 6. -/
theorem witness_parse_inverts :
    40 + (List.replicate 65495 (0 : Byte)).length ≤ 65535 ∧ fieldsT1.doff = 5
    ∧ ({ fieldsT1 with doff := 4 } : TcpHeader).doff ≠ 5 ∧ ({ fieldsT1 with doff := 4 } : TcpHeader).doff.toNat < 5
    ∧ ({ fieldsT1 with doff := 6 } : TcpHeader).doff ≠ 5 ∧ [(0x48 : Byte)] ≠ [] := by
  refine ⟨?_, by decide, by decide, by decide, by decide, by decide⟩
  rw [List.length_replicate]

/-- ParseSkipsIpOptions: the header of X3. -/
theorem witness_ip_options :
    (0x46 :: headerB7.tail).length = 20 ∧ byteAt (0x46 :: headerB7.tail) 0 = 0x46 ∧ [(0x01 : Byte), 0x01, 0x01, 0x00].length = 4
    ∧ fieldsT1.doff = 5 := by decide

/-- ConnectSendsTheSyn: outside CLOSED, and in CLOSED with either answer to the send. -/
theorem witness_connect :
    (afterH11 .ok).block.conn ≠ .closed ∧ (beforeH1 [.ok]).block.conn = .closed ∧ synAnswer (beforeH1 [.ok]) = .ok
    ∧ (beforeH1 [.error]).block.conn = .closed ∧ synAnswer (beforeH1 [.error]) = .error := by decide +kernel

/-- ReceiveStepOfTheWait: no packet yet, a failure, a packet too short, a packet without ACK, and the SYN/ACK. -/
theorem witness_receive :
    (afterH1 [.rx] [.timeout] []).env.events = .rx :: [] ∧ (afterH1 [.rx] [.timeout] []).block.busy = true
    ∧ recvAnswer (afterH1 [.rx] [.timeout] []) = .timeout ∧ recvAnswer (afterH1 [.rx] [.error] []) = .error
    ∧ recvAnswer (afterH1 [.rx] [.bytes (bytesH2.take 39)] []) = .bytes (bytesH2.take 39) ∧ parse (bytesH2.take 39) = none
    ∧ recvAnswer (afterH1 [.rx] [.bytes bytesH2] [.ok]) = .bytes bytesH2 := by decide +kernel

/-- AcceptanceSendsTheAck, ReceiveStepOfTheWait: a SYN/ACK that is awaited, with either answer to the ACK's send; a packet that is not. -/
theorem witness_accept :
    (∃ p, parse bytesH2 = some p ∧ awaited (afterH1 [.rx] [.bytes bytesH2] [.ok]).block.c p)
    ∧ sendAnswer (afterRecv (afterH1 [.rx] [.bytes bytesH2] [.ok])) = .ok
    ∧ sendAnswer (afterRecv (afterH1 [.rx] [.bytes bytesH2] [.error])) = .error
    ∧ (∃ p, parse (bytesH2.set 33 0x10) = some p ∧ ¬ awaited (afterH1 [.rx] [.bytes bytesH2] [.ok]).block.c p) := by
  refine ⟨⟨_, rfl, ?_⟩, by decide +kernel, by decide +kernel, ⟨_, rfl, ?_⟩⟩
  · simp only [awaited]; decide +kernel
  · simp only [awaited]; decide +kernel

/-- TickLowersTheTimer: outside the wait, with 5 time-units left, and with 1. -/
theorem witness_tick :
    (idleWith .tick).env.events = .tick :: [] ∧ (idleWith .tick).block.busy = false
    ∧ (afterH1 [.tick] [] []).env.events = .tick :: [] ∧ (afterH1 [.tick] [] []).block.busy = true
    ∧ 1 ≤ (afterH1 [.tick] [] []).block.c.timer.toNat
    ∧ (putTimer 1 (afterH1 [.tick] [] [])).block.busy = true ∧ (putTimer 1 (afterH1 [.tick] [] [])).block.c.timer.toNat = 1 := by
  decide +kernel

/-- SendFramesTheData, NotConnectedMeansNoIo: not connected; connected with a payload on either side of the limit; either answer. -/
theorem witness_send :
    State.reset.block.conn ≠ .established ∧ isNext (exec .send State.reset) = true
    ∧ (afterH11 .ok).block.conn = .established ∧ (afterH11 .ok).block.plen.toNat ≤ 65495
    ∧ 65495 < (withBlock fun k => { k with conn := .established, plen := 65496 }).block.plen.toNat
    ∧ (withBlock fun k => { k with conn := .established, plen := 65495 }).block.plen.toNat ≤ 65495
    ∧ sendAnswer (afterH11 .ok) = .ok ∧ sendAnswer (afterH11 .error) = .error
    ∧ State.reset.block.err ≠ .notConnected ∧ (after (exec .send State.reset)).map (fun t => t.block.err) = some .notConnected := by
  decide +kernel

/-- InitGivesTheResetState: INIT's word during the wait. -/
theorem witness_init_busy :
    (afterH1 [.hostWrite 0 (encode .init)] [] []).env.events = .hostWrite 0 (encode .init) :: []
    ∧ (afterH1 [.hostWrite 0 (encode .init)] [] []).block.busy = true := ⟨rfl, rfl⟩

/-- ResetAtAnyTime: during the wait. -/
theorem witness_reset : (afterH1 [.reset] [] []).env.events = .reset :: [] := rfl

/-- HostWritesTakeEffectOnlyInIdle, HostReadsHaveNoSideEffect, HostBufWriteStoresOneByte: each access, busy and in IDLE; the last byte. -/
theorem witness_host_accesses :
    (∀ e : Event, (afterH1 [e] [] []).env.events = e :: [] ∧ (afterH1 [e] [] []).block.busy = true)
    ∧ (∀ e : Event, (idleWith e).env.events = e :: [] ∧ (idleWith e).block.busy = false)
    ∧ 65534 < 65535 ∧ (0x14 ≠ 0) ∧ Buf.pbuf ≠ .obuf :=
  ⟨fun _ => ⟨rfl, rfl⟩, fun _ => ⟨rfl, rfl⟩, by decide, by decide, by decide⟩

/-- RegisterMap, WritesAreTruncated, RegistersDoNotAlias: a reserved number, a register of each access right, two registers. -/
theorem witness_registers :
    regOfNumber 0x03 = none ∧ regOfNumber 0x49 = none ∧ regAccess .T_DOFF = .readWrite ∧ regAccess .C_TIMER ≠ .readWrite
    ∧ regAccess .CMD ≠ .readWrite ∧ Reg.I_SRC ≠ Reg.A_SRC_IP := by decide +kernel

/-- LoadedBytesAreTheInput: a load of no bytes and one of three, in IDLE; the longest load. -/
theorem witness_load :
    (State.reset.block.busy = false) ∧ ([] : List Byte).length ≤ 65535 ∧ (List.replicate 65535 (0 : Byte)).length ≤ 65535
    ∧ (setEvents (scriptLdIbuf [1, 2, 3]) State.reset).env.events = scriptLdIbuf [1, 2, 3] ++ [] :=
  ⟨rfl, by decide, by rw [List.length_replicate], rfl⟩

/-- MemReadAfterMemWrite: the largest number of one byte and of four; an index on either side. -/
theorem witness_mem_write : 255 < 256 ^ 1 ∧ 2 ^ 32 - 1 < 256 ^ 4 ∧ (9 < 10 ∨ 10 + 4 ≤ 9) ∧ (14 < 10 ∨ 10 + 4 ≤ 14) := by decide

/-- EveryStepKeepsTheInvariant, ConnectionStateTransitions: the invariant, a step, and a change of state for each row of the table. -/
theorem witness_invariant :
    (setEvents [.hostWrite 0 0x10] (beforeH1 [.ok])).Inv
    ∧ (after (step (setEvents [.hostWrite 0 0x10] (beforeH1 [.ok])))).map (fun t => t.block.conn) = some .synSent
    ∧ (afterH1 [.rx] [.bytes bytesH2] [.ok]).Inv
    ∧ (after (step (afterH1 [.rx] [.bytes bytesH2] [.ok]))).map (fun t => t.block.conn) = some .established
    ∧ (after (step (afterH1 [.reset] [] []))).map (fun t => t.block.conn) = some .closed
    ∧ (setEvents [.hostWrite 0 0x1F] (afterH11 .ok)).Inv
    ∧ (after (step (setEvents [.hostWrite 0 0x1F] (afterH11 .ok)))).map (fun t => t.block.conn) = some .closed := by decide +kernel

/-- CommandsTouchOnlyWhatTheTableLists, CommandsEndWithTheirOwnErrors: every command answers a next state from reset; a register outside
the row; an undecodable word; a poll and a tick during the wait. -/
theorem witness_commands :
    (∀ i ∈ [Instr.csum, .pseudo, .encTcp, .decTcp, .encIp, .decIp, .buildTcp, .buildIp, .parse, .send, .init],
      isNext (exec i State.reset) = true)
    ∧ Reg.T_SEQ ∉ mayWrite .buildTcp ∧ State.reset.block.busy = false
    ∧ isNext (step (afterH1 [.rx] [.timeout] [])) = true ∧ isNext (step (afterH1 [.tick] [] [])) = true
    ∧ isNext (step (idleWith (.hostWrite 0 0x07))) = true ∧ decode 0x07 = .error .unassignedCode :=
  ⟨by decide +kernel, by decide +kernel, rfl, by decide +kernel, by decide +kernel, by decide +kernel, rfl⟩

/-- EarlyErrorsChangeOnlyErr: an early error in IDLE. -/
theorem witness_early_errors :
    (after (exec .decTcp State.reset)).map (fun t => (t.block.busy, t.block.err)) = some (false, .malformedHeader)
    ∧ Err.malformedHeader ∈ [Err.malformedHeader, .notConnected, .illegalCommand, .badLength] := by decide +kernel

/-- EstablishedNeverReceives: an established connection, and a poll that comes too late. -/
theorem witness_established :
    (setEvents [.rx] (afterH11 .ok)).Inv ∧ (setEvents [.rx] (afterH11 .ok)).block.conn = .established
    ∧ isNext (step (setEvents [.rx] (afterH11 .ok))) = true := by decide +kernel

/-- SentPacketsAreTheBuiltOnes: a step that sends. -/
theorem witness_sent :
    (after (step (afterH1 [.rx] [.bytes bytesH2] [.ok]))).map (fun t => decide (Obs.sent bytesH3 0xC0A80002 .ok ∈ t.env.trace.drop 0))
      = some true := by decide +kernel

/-- EveryWaitEnds: five ticks, with a poll and a host access between them. -/
theorem witness_wait :
    (afterH1 [.tick, .tick, .rx, .hostRead 1, .tick, .tick, .tick] [.timeout] []).Inv
    ∧ (afterH1 [.tick, .tick, .rx, .hostRead 1, .tick, .tick, .tick] [.timeout] []).block.busy = true
    ∧ (∀ e ∈ (afterH1 [.tick, .tick, .rx, .hostRead 1, .tick, .tick, .tick] [.timeout] []).env.events, e.admitted = true)
    ∧ (afterH1 [.tick, .tick, .rx, .hostRead 1, .tick, .tick, .tick] [.timeout] []).block.c.timer.toNat
      ≤ (afterH1 [.tick, .tick, .rx, .hostRead 1, .tick, .tick, .tick] [.timeout] []).env.events.count .tick := by decide +kernel

/-- OnlyMissingBytesStopTheMachine: the last buffer byte. -/
theorem witness_admitted : ∀ e ∈ (idleWith (.hostBufWrite .ibuf 65534 0)).env.events, e.admitted = true := by decide

end Sys2Proof.Tests
end

section
/-! The register space and the host's accesses: what a host write does to the registers and the buffers, which numbers name a register,
and what a step does whose event is an access of the host. The statements of spec/10_state.md about them are settled with these laws. -/

namespace Sys2Proof.Machine

open Sys2Proof.Claims

/-! ### The register map (R21) -/

theorem regOfNumber_regNumber (r : Reg) : regOfNumber (regNumber r) = some r := by cases r <;> rfl

theorem readNumber_of_some {n : Nat} {r : Reg} (h : regOfNumber n = some r) (b : Block) : readNumber n b = readReg r b := by
  simp only [readNumber, h]

theorem writeNumber_of_some {n : Nat} {r : Reg} (h : regOfNumber n = some r) (v : Word) (b : Block) :
    writeNumber n v b = writeReg r v b := by
  simp only [writeNumber, h]

theorem readNumber_of_none {n : Nat} (h : regOfNumber n = none) (b : Block) : readNumber n b = 0 := by
  simp only [readNumber, h]

theorem writeNumber_of_none {n : Nat} (h : regOfNumber n = none) (v : Word) (b : Block) : writeNumber n v b = b := by
  simp only [writeNumber, h]

/-- Every number above that of C_TIMER, the last register, is reserved. -/
theorem regOfNumber_of_gt {n : Nat} (h : 0x48 < n) : regOfNumber n = none := by
  have hrows : ∀ row ∈ registerTable, row.1 ≤ 0x48 := by decide
  rw [regOfNumber, Option.map_eq_none_iff, List.lookup_eq_none_iff]
  intro row hrow
  have hle := hrows row hrow
  exact bne_iff_ne.mpr (Nat.ne_of_gt (Nat.lt_of_le_of_lt hle h))

/-- The reserved numbers: the gaps of the table, found by its rows up to 0x48, and everything above. -/
theorem regOfNumber_eq_none_iff (n : Nat) : regOfNumber n = none ↔
    n = 0x03 ∨ n = 0x0F ∨ (0x19 ≤ n ∧ n ≤ 0x1F) ∨ (0x2B ≤ n ∧ n ≤ 0x2F) ∨ (0x3A ≤ n ∧ n ≤ 0x3F) ∨ 0x48 < n := by
  by_cases h : n < 0x49
  · revert n
    decide
  · exact iff_of_true (regOfNumber_of_gt (by omega)) (by omega)

/-! ### Reading and writing a register (R37, R40) -/

theorem regWidth_le (r : Reg) : regWidth r ≤ 32 := by cases r <;> decide

theorem toNat_setWidth_lt {w : Nat} (x : BitVec w) (h : w ≤ 32) : (x.setWidth 32).toNat < 2 ^ w := by
  rw [BitVec.toNat_setWidth_of_le h]
  exact x.isLt

/-- A register reads as its field zero-extended: those of 32 bits fill the slot, the others are a narrower field. -/
theorem readReg_lt (r : Reg) (b : Block) : (readReg r b).toNat < 2 ^ regWidth r := by
  cases r with
  | CMD | STATUS | A_SRC_IP | A_DST_IP | T_SEQ | T_ACK | I_SRC | I_DST | P_SEQ | P_ACK | C_LOCAL_IP | C_REMOTE_IP | C_SEQ | C_ACK =>
    exact (readReg _ b).isLt
  | _ => exact toNat_setWidth_lt _ (by decide)

/-- Everything a host write can do: nothing, or, where the register is read-write, store the low bits that fit in that register's own
field of the block, which no other register reads. -/
theorem writeReg_cases (r : Reg) :
    (regAccess r ≠ .readWrite ∧ ∀ v b, writeReg r v b = b)
    ∨ (regAccess r = .readWrite ∧ ∀ v b, readReg r (writeReg r v b) = (v.setWidth (regWidth r)).setWidth 32
        ∧ ∀ r', r ≠ r' → readReg r' (writeReg r v b) = readReg r' b) := by
  cases r with
  | CMD | STATUS | ERR | OLEN | R_CSUM | R_IPHL | R_TCPHL | P_VALID | P_SPORT | P_DPORT | P_SEQ | P_ACK | P_FLAGS | P_IPHL | P_TCPHL
  | P_PAYOFF | P_PAYLEN | C_LOCAL_PORT | C_SEQ | C_ACK | C_TIMER => exact .inl ⟨by decide, fun _ _ => rfl⟩
  | _ =>
    refine .inr ⟨rfl, fun v b => ⟨rfl, fun r' h => ?_⟩⟩
    cases r' <;> first | rfl | exact absurd rfl h

theorem writeReg_of_not_readWrite {r : Reg} (h : regAccess r ≠ .readWrite) (v : Word) (b : Block) : writeReg r v b = b := by
  obtain ⟨_, hkeep⟩ | ⟨hrw, _⟩ := writeReg_cases r
  · exact hkeep v b
  · exact absurd hrw h

theorem readReg_writeReg_same {r : Reg} (h : regAccess r = .readWrite) (v : Word) (b : Block) :
    (readReg r (writeReg r v b)).toNat = v.toNat % 2 ^ regWidth r := by
  obtain ⟨hro, _⟩ | ⟨_, hstore⟩ := writeReg_cases r
  · exact absurd h hro
  · obtain ⟨hsame, _⟩ := hstore v b
    rw [hsame, BitVec.toNat_setWidth_of_le (regWidth_le r), BitVec.toNat_setWidth]

theorem readReg_writeReg_other {r r' : Reg} (h : r ≠ r') (v : Word) (b : Block) : readReg r' (writeReg r v b) = readReg r' b := by
  obtain ⟨_, hkeep⟩ | ⟨_, hstore⟩ := writeReg_cases r
  · rw [hkeep]
  · obtain ⟨_, hother⟩ := hstore v b
    exact hother r' h

theorem buf_writeReg (r : Reg) (v : Word) (b : Block) (buf : Buf) : (writeReg r v b).buf buf = b.buf buf := by
  cases buf <;> cases r <;> rfl

/-! ### The host's accesses -/

theorem hostWrite_of_busy {s : State} (hb : s.block.busy = true) (n : Nat) (v : Word) : hostWrite n v s = s := if_pos hb

theorem hostBufWrite_of_busy {s : State} (hb : s.block.busy = true) (b : Buf) (k : Nat) (v : Byte) : hostBufWrite b k v s = s :=
  if_pos hb

theorem hostWrite_of_idle {s : State} (hb : s.block.busy = false) (n : Nat) (v : Word) :
    hostWrite n v s = { s with block := writeNumber n v s.block } := by
  simp [hostWrite, hb]

theorem hostBufWrite_of_idle {s : State} (hb : s.block.busy = false) (b : Buf) (k : Nat) (v : Byte) :
    hostBufWrite b k v s = { s with block := writeBuf b k v s.block } := by
  simp [hostBufWrite, hb]

/-- A byte written to IBUF or PBUF reads back. -/
theorem readByte_writeBuf_same (s : State) {b : Buf} (h : b ≠ .obuf) (k : Nat) (v : Byte) :
    State.readByte { s with block := writeBuf b k v s.block } b k = v := by
  cases b with
  | obuf => exact absurd rfl h
  | ibuf | pbuf => simp [State.readByte, writeBuf, Block.buf, Memory.read_write_same]

/-! ### A step whose event is an access of the host (spec/20_memory.md R55, R56) -/

/-- A step that starts no command answers what its event does. -/
theorem step_of_done {s : State} {e : Event} {rest : List Event} {o : Result} (he : s.env.events = e :: rest)
    (hd : takeEvent e (setEvents rest s) = .done o) : step s = o := by
  simp only [step, nextWork, he, hd]

section
variable {s : State} {rest : List Event}

theorem step_hostRead {n : Nat} (he : s.env.events = .hostRead n :: rest) : step s = .next (hostRead n (setEvents rest s)) :=
  step_of_done he rfl

theorem step_hostBufRead {b : Buf} {k : Nat} (he : s.env.events = .hostBufRead b k :: rest) (hk : k < bufMax) :
    step s = .next (hostBufRead b k (setEvents rest s)) :=
  step_of_done he (by simp only [takeEvent, if_pos hk])

theorem step_hostBufWrite {b : Buf} {k : Nat} {v : Byte} (he : s.env.events = .hostBufWrite b k v :: rest) (hk : k < bufMax) :
    step s = .next (hostBufWrite b k v (setEvents rest s)) :=
  step_of_done he (by simp only [takeEvent, if_pos hk])

theorem step_hostWrite {n : Nat} {v : Word} (he : s.env.events = .hostWrite n v :: rest) (hn : n ≠ 0) :
    step s = .next (hostWrite n v (setEvents rest s)) :=
  step_of_done he (by simp only [takeEvent, if_neg hn])

/-- A write to CMD while busy starts no command. -/
theorem step_command_of_busy {w : Word} (he : s.env.events = .hostWrite 0 w :: rest) (hb : s.block.busy = true) :
    step s = .next (setEvents rest s) :=
  step_of_done he (by simp [takeEvent, issue, hb])

theorem step_hostWrite_of_busy {n : Nat} {v : Word} (he : s.env.events = .hostWrite n v :: rest) (hb : s.block.busy = true) :
    step s = .next (setEvents rest s) := by
  by_cases hn : n = 0
  · subst hn
    exact step_command_of_busy he hb
  · rw [step_hostWrite he hn, hostWrite_of_busy (s := setEvents rest s) hb]

theorem step_hostWrite_of_idle {n : Nat} {v : Word} (he : s.env.events = .hostWrite n v :: rest) (hn : n ≠ 0)
    (hb : s.block.busy = false) :
    step s = .next { setEvents rest s with block := writeNumber n v s.block } := by
  rw [step_hostWrite he hn, hostWrite_of_idle (s := setEvents rest s) hb, setEvents_block]

theorem step_hostBufWrite_of_busy {b : Buf} {k : Nat} {v : Byte} (he : s.env.events = .hostBufWrite b k v :: rest) (hk : k < bufMax)
    (hb : s.block.busy = true) : step s = .next (setEvents rest s) := by
  rw [step_hostBufWrite he hk, hostBufWrite_of_busy (s := setEvents rest s) hb]

theorem step_hostBufWrite_of_idle {b : Buf} {k : Nat} {v : Byte} (he : s.env.events = .hostBufWrite b k v :: rest) (hk : k < bufMax)
    (hb : s.block.busy = false) :
    step s = .next { setEvents rest s with block := writeBuf b k v s.block } := by
  rw [step_hostBufWrite he hk, hostBufWrite_of_idle (s := setEvents rest s) hb, setEvents_block]

end

/-! ### The statements -/

/-- Settles O35: R39's value of each register, register by register. -/
theorem resetValues : Obligations.ResetValues :=
  ⟨fun r => by cases r <;> rfl, rfl, rfl, rfl, fun b _ => by cases b <;> rfl⟩

/-- Settles O38: R38's two phases; a write to CMD while busy is `step_command_of_busy`. -/
theorem hostWritesTakeEffectOnlyInIdle : Obligations.HostWritesTakeEffectOnlyInIdle := by
  constructor
  · intro s rest hb
    refine ⟨fun n v he => step_hostWrite_of_busy he hb, fun b k v hk he => ?_, fun n he => ⟨_, step_hostRead he, rfl, rfl⟩,
      fun b k hk he => ⟨_, step_hostBufRead he hk, rfl, rfl⟩⟩
    exact step_hostBufWrite_of_busy he hk hb
  · intro s rest hb
    refine ⟨fun n v hn he => step_hostWrite_of_idle he hn hb, fun b k v hk hbuf he => ?_⟩
    exact ⟨_, step_hostBufWrite_of_idle he hk hb, rfl, readByte_writeBuf_same (setEvents rest s) hbuf k v⟩

/-- Settles O40: the reserved numbers are those without a row, and every register stands at its own number. -/
theorem registerMap : Obligations.RegisterMap :=
  ⟨regOfNumber_eq_none_iff,
    fun _ b hn => ⟨readNumber_of_none hn b, fun v => writeNumber_of_none hn v b⟩,
    fun r => ⟨regOfNumber_regNumber r, fun b => ⟨readNumber_of_some (regOfNumber_regNumber r) b, readReg_lt r b,
      fun v => writeNumber_of_some (regOfNumber_regNumber r) v b⟩⟩,
    fun _ => rfl⟩

/-- Settles O41. -/
theorem writesAreTruncated : Obligations.WritesAreTruncated :=
  fun r v b => ⟨fun h => readReg_writeReg_same h v b, fun h => writeReg_of_not_readWrite h v b, readReg_lt r b⟩

/-- Settles O42. -/
theorem registersDoNotAlias : Obligations.RegistersDoNotAlias :=
  fun r _ v b h => ⟨readReg_writeReg_other h v b, buf_writeReg r v b⟩

end Sys2Proof.Machine
end

section
/-! The encodings: which words the decoder takes for a command, and the bytes of the two wire headers. The statements of
spec/30_encoding.md about them are settled with these laws. -/

namespace Sys2Proof.Machine

open Sys2Proof.Claims

/-! ### The fields of a command word (R95) -/

theorem commandCode_toNat (w : Word) : (commandCode w).toNat = w.toNat % 256 := by
  simp [commandCode, BitVec.extractLsb'_toNat]

theorem upperBits_eq_zero_iff (w : Word) : w.extractLsb' 8 24 = 0 ↔ w.toNat / 256 = 0 := by
  have hw := w.isLt
  rw [← BitVec.toNat_inj, BitVec.extractLsb'_toNat, Nat.shiftRight_eq_div_pow]
  simp only [BitVec.ofNat_eq_ofNat, BitVec.toNat_ofNat]
  omega

/-- A word without a bit in 31:8 is its code, zero-extended. -/
theorem eq_setWidth_commandCode {w : Word} (h : w.toNat / 256 = 0) : w = (commandCode w).setWidth 32 := by
  apply BitVec.eq_of_toNat_eq
  rw [BitVec.toNat_setWidth_of_le (by decide), commandCode_toNat]
  omega

/-! ### Decoding (R96, R97) -/

/-- R97's list of the reserved codes names exactly those that R96's table leaves out. -/
theorem lookup_codeTable_eq_none_iff (c : Byte) : codeTable.lookup c = none ↔ codeReserved c.toNat = true := by
  have hc := c.isLt
  rw [List.lookup_eq_none_iff]
  simp [codeTable, codeReserved, ← BitVec.toNat_inj]
  omega

theorem setWidth_eq_encode_of_lookup {c : Byte} {i : Instr} (h : codeTable.lookup c = some i) : c.setWidth 32 = encode i := by
  have hrows : ∀ row ∈ codeTable, row.1.setWidth 32 = encode row.2 := by decide
  obtain ⟨before, after, htable, -⟩ := List.lookup_eq_some_iff.mp h
  exact hrows (c, i) (by simp [htable])

/-- Everything decoding can answer. -/
theorem decode_cases (w : Word) :
    (w.toNat / 256 ≠ 0 ∧ decode w = .error .reservedBits)
    ∨ (w.toNat / 256 = 0 ∧ codeTable.lookup (commandCode w) = none ∧ decode w = .error .unassignedCode)
    ∨ ∃ i, w.toNat / 256 = 0 ∧ codeTable.lookup (commandCode w) = some i ∧ decode w = .ok i := by
  by_cases hu : w.toNat / 256 = 0
  · have hz := (upperBits_eq_zero_iff w).mpr hu
    cases hl : codeTable.lookup (commandCode w) with
    | none => exact .inr (.inl ⟨hu, rfl, by simp [decode, hz, hl]⟩)
    | some i => exact .inr (.inr ⟨i, hu, rfl, by simp [decode, hz, hl]⟩)
  · exact .inl ⟨hu, if_pos (mt (upperBits_eq_zero_iff w).mp hu)⟩

@[simp] theorem decode_encode (i : Instr) : decode (encode i) = .ok i := by cases i <;> rfl

theorem eq_encode_of_decode {w : Word} {i : Instr} (h : decode w = .ok i) : w = encode i := by
  obtain ⟨_, hd⟩ | ⟨_, _, hd⟩ | ⟨j, hu, hl, hd⟩ := decode_cases w
  · cases hd.symm.trans h
  · cases hd.symm.trans h
  · cases hd.symm.trans h
    exact (eq_setWidth_commandCode hu).trans (setWidth_eq_encode_of_lookup hl)

theorem decode_eq_ok_iff (w : Word) (i : Instr) : decode w = .ok i ↔ w = encode i :=
  ⟨eq_encode_of_decode, fun h => h ▸ decode_encode i⟩

theorem decode_eq_error_iff (w : Word) :
    (∃ e, decode w = .error e) ↔ codeReserved (w.toNat % 256) = true ∨ w.toNat / 256 ≠ 0 := by
  rw [← commandCode_toNat, ← lookup_codeTable_eq_none_iff]
  obtain ⟨hu, hd⟩ | ⟨_, hl, hd⟩ | ⟨i, hu, hl, hd⟩ := decode_cases w
  · exact iff_of_true ⟨_, hd⟩ (.inr hu)
  · exact iff_of_true ⟨_, hd⟩ (.inl hl)
  · simp [hd, hl, hu]

/-! ### A step whose event writes an undecodable word to CMD (R97) -/

theorem step_command_of_error {s : State} {w : Word} {rest : List Event} {e : DecodeError}
    (he : s.env.events = .hostWrite 0 w :: rest) (hb : s.block.busy = false) (hd : decode w = .error e) :
    step s = .next (raise .illegalCommand (setEvents rest s)) :=
  step_of_done he (by simp [takeEvent, issue, hb, hd])

/-- In IDLE a `raise` has no BUSY to clear. -/
theorem raise_eq_onlyErr {s : State} (hb : s.block.busy = false) (e : Err) : raise e s = onlyErr e s := by
  rw [raise_eq, ← hb, onlyErr]

/-! ### The numbers that the bytes of a header hold (R80, R84) -/

theorem byteAt_be16_zero (v : Half) : (byteAt (be16 v) 0).toNat = v.toNat / 256 := by
  have hv := v.isLt
  simp [be16_eq, byteAt]
  omega

theorem byteAt_be16_one (v : Half) : (byteAt (be16 v) 1).toNat = v.toNat % 256 := by
  simp [be16_eq, byteAt]

theorem beNumber_be16 (v : Half) : beNumber (be16 v) = v.toNat := by
  have hv := v.isLt
  simp [be16_eq, beNumber]
  omega

theorem beNumber_be32 (v : Word) : beNumber (be32 v) = v.toNat := by
  have hv := v.isLt
  simp [be32_eq, beNumber]
  omega

theorem versionByte_toNat (ver ihl : BitVec 4) : (versionByte ver ihl).toNat = ver.toNat * 16 + ihl.toNat := by
  revert ver ihl
  decide

theorem offsetByte_toNat (d : BitVec 4) : (offsetByte d).toNat = d.toNat * 16 := by
  revert d
  decide

theorem flagByte_toNat (v : BitVec 6) : (flagByte v).toNat = v.toNat := BitVec.toNat_setWidth_of_le (by decide)

/-- The six flags stand in bits 5:0 of the flag byte, and its bits 7:6 are 0. -/
theorem getLsbD_flagByte (v : BitVec 6) (k : Nat) : (flagByte v).getLsbD k = (decide (k < 6) && v.getLsbD k) := by
  by_cases hk : k < 6
  · have h8 : k < 8 := by omega
    simp [flagByte, hk, h8]
  · have hv : v.getLsbD k = false := BitVec.getLsbD_of_ge v k (Nat.le_of_not_lt hk)
    simp [flagByte, hv]

/-! ### The reserved bits of a TCP header (R83) -/

theorem offsetByte_and_0x0F (d : BitVec 4) : offsetByte d &&& 0x0F = 0 := by
  revert d
  decide

theorem flagByte_and_0xC0 (v : BitVec 6) : flagByte v &&& 0xC0 = 0 := by
  revert v
  decide

theorem offsetByte_offsetOfByte (x : Byte) : offsetByte (offsetOfByte x) = x &&& 0xF0 := by
  revert x
  decide

theorem flagByte_flagsOfByte (x : Byte) : flagByte (flagsOfByte x) = x &&& 0x3F := by
  revert x
  decide

theorem offsetOfByte_and_0xF0 (x : Byte) : offsetOfByte (x &&& 0xF0) = offsetOfByte x := by
  rw [← offsetByte_offsetOfByte, offsetOfByte_offsetByte]

theorem flagsOfByte_and_0x3F (x : Byte) : flagsOfByte (x &&& 0x3F) = flagsOfByte x := by
  rw [← flagByte_flagsOfByte, flagsOfByte_flagByte]

/-- A TCP header with its reserved bits cleared: the low nibble of byte 12 and bits 7:6 of byte 13. -/
def clearReserved (b : List Byte) : List Byte := (b.set 12 (byteAt b 12 &&& 0xF0)).set 13 (byteAt b 13 &&& 0x3F)

@[simp] theorem clearReserved_length (b : List Byte) : (clearReserved b).length = b.length := by simp [clearReserved]

theorem byteAt_clearReserved_12 {b : List Byte} (h : 20 ≤ b.length) : byteAt (clearReserved b) 12 = byteAt b 12 &&& 0xF0 := by
  have hk : 12 < b.length := by omega
  simp [clearReserved, byteAt, hk]

theorem byteAt_clearReserved_13 {b : List Byte} (h : 20 ≤ b.length) : byteAt (clearReserved b) 13 = byteAt b 13 &&& 0x3F := by
  have hk : 13 < b.length := by omega
  simp [clearReserved, byteAt, hk]

theorem byteAt_clearReserved_other (b : List Byte) {k : Nat} (h12 : k ≠ 12) (h13 : k ≠ 13) :
    byteAt (clearReserved b) k = byteAt b k := by
  simp [clearReserved, byteAt, Ne.symm h12, Ne.symm h13]

/-- A decoder does not see the reserved bits. -/
theorem decodeTcp_clearReserved (b : List Byte) : decodeTcp (clearReserved b) = decodeTcp b := by
  by_cases h : 20 ≤ b.length
  · have hc : 20 ≤ (clearReserved b).length := by simpa using h
    rw [decodeTcp_of_long h, decodeTcp_of_long hc, byteAt_clearReserved_12 h, byteAt_clearReserved_13 h, offsetOfByte_and_0xF0,
      flagsOfByte_and_0x3F]
    simp [be16At, be32At, byteAt_clearReserved_other]
  · have hs : b.length < 20 := by omega
    rw [decodeTcp_of_short hs, decodeTcp_of_short (by simpa using hs)]

/-- Encoding what was decoded gives the header back with its reserved bits cleared. -/
theorem encodeTcp_of_decodeTcp {b : List Byte} {f : TcpHeader} (h : decodeTcp b = some f) :
    encodeTcp f = (clearReserved b).take 20 := by
  have hl : 20 ≤ b.length := by
    by_contra hs
    rw [decodeTcp_of_short (by omega)] at h
    cases h
  rw [decodeTcp_of_long hl, Option.some.injEq] at h
  subst h
  rw [take20_eq _ (by simpa using hl)]
  simp [encodeTcp, be16_be16At, be32_be32At, offsetByte_offsetOfByte, flagByte_flagsOfByte, List.range_succ,
    byteAt_clearReserved_other, byteAt_clearReserved_12 hl, byteAt_clearReserved_13 hl]

/-! ### The statements -/

/-- Settles O2: decoding inverts encoding, and R96's rows are the numbers of the encoded words. -/
theorem decodeExactlyTheEncodedWords : Obligations.DecodeExactlyTheEncodedWords := by
  refine ⟨decode_eq_ok_iff, fun w i => ?_⟩
  rw [decode_eq_ok_iff, ← BitVec.toNat_inj]
  cases i <;> simp [encode]

/-- Settles O3: the step raises IllegalCommand, and BUSY is 0 already. -/
theorem illegalWordsChangeOnlyErr : Obligations.IllegalWordsChangeOnlyErr := by
  refine fun w => ⟨(decode_eq_error_iff w).symm, fun s rest he hb hill => ?_⟩
  obtain ⟨e, hd⟩ := (decode_eq_error_iff w).mpr hill
  rw [step_command_of_error he hb hd, raise_eq_onlyErr (s := setEvents rest s) hb]
  rfl

/-- Settles O14: bytes 12 and 13 of an encoded header are its offset byte and its flag byte; the rest is about `clearReserved`. -/
theorem reservedTcpBitsIgnored : Obligations.ReservedTcpBitsIgnored :=
  ⟨fun f => ⟨offsetByte_and_0x0F f.doff, flagByte_and_0xC0 f.flags⟩,
    fun b => ⟨decodeTcp_clearReserved b, fun _ h => encodeTcp_of_decodeTcp h⟩⟩

/-- Settles O11: each byte or slice of the encoded header is by computation the encoding of its own field. -/
theorem tcpHeaderLayout : Obligations.TcpHeaderLayout :=
  fun f => ⟨encodeTcp_length f,
    byteAt_be16_zero f.sport, byteAt_be16_one f.sport, byteAt_be16_zero f.dport, byteAt_be16_one f.dport,
    beNumber_be32 f.seq, beNumber_be32 f.ack,
    offsetByte_toNat f.doff, flagByte_toNat f.flags, fun k _ => getLsbD_flagByte f.flags k,
    beNumber_be16 f.win, beNumber_be16 f.csum, beNumber_be16 f.urg⟩

/-- Settles O12: as for the TCP header. -/
theorem ipHeaderLayout : Obligations.IpHeaderLayout :=
  fun g => ⟨encodeIp_length g, versionByte_toNat g.ver g.ihl, rfl,
    beNumber_be16 g.totlen, beNumber_be16 g.id, beNumber_be16 g.frag, rfl, rfl,
    beNumber_be16 g.csum, beNumber_be32 g.src, beNumber_be32 g.dst⟩

end Sys2Proof.Machine
end

section
/-! The checksum engine: the sum of the words, the folded sum and the checksum as functions of that sum, what a checksum field adds to
it, and what CSUM and PSEUDO store. The statements of spec/40_checksum.md about them are settled with these laws. -/

namespace Sys2Proof.Machine

open Sys2Proof.Claims

/-! ### The sum of the words (R110) -/

@[simp] theorem rawSum_nil : rawSum [] = 0 := rfl

@[simp] theorem rawSum_singleton (x : Byte) : rawSum [x] = x.toNat * 256 := by simp [rawSum, padEven, words16]

@[simp] theorem rawSum_cons_cons (x y : Byte) (r : List Byte) : rawSum (x :: y :: r) = x.toNat * 256 + y.toNat + rawSum r := by
  have hword : rawSum [x, y] = x.toNat * 256 + y.toNat := by simp [rawSum, padEven, words16]
  rw [← hword, ← rawSum_append [x, y] r (by simp)]
  rfl

@[simp] theorem rawSum_be16 (v : Half) : rawSum (be16 v) = v.toNat := by
  have hv := v.isLt
  simp [be16_eq]
  omega

theorem toNat_eq_zero_iff {w : Nat} (x : BitVec w) : x.toNat = 0 ↔ x = 0#w := by
  rw [← BitVec.toNat_inj, BitVec.toNat_ofNat, Nat.zero_mod]

theorem rawSum_eq_zero_iff : ∀ b : List Byte, rawSum b = 0 ↔ ∀ x ∈ b, x = 0
  | [] => by simp
  | [x] => by simp [toNat_eq_zero_iff]
  | x :: y :: r => by simp [rawSum_eq_zero_iff r, toNat_eq_zero_iff, and_assoc]

theorem rawSum_replicate_zero (n : Nat) : rawSum (List.replicate n 0) = 0 :=
  (rawSum_eq_zero_iff _).mpr fun _ => List.eq_of_mem_replicate

/-- Trailing zeros add nothing: the first of them may only stand where an odd length's pad stood. -/
theorem rawSum_append_replicate_zero : ∀ (b : List Byte) (n : Nat), rawSum (b ++ List.replicate n 0) = rawSum b
  | [], n => rawSum_replicate_zero n
  | [_], 0 => rfl
  | [x], n + 1 => by
    rw [List.replicate_succ, List.singleton_append, rawSum_cons_cons, rawSum_replicate_zero]
    rfl
  | x :: y :: r, n => by
    rw [List.cons_append, List.cons_append, rawSum_cons_cons, rawSum_cons_cons, rawSum_append_replicate_zero r n]

/-! ### The folded sum and the checksum are functions of the sum -/

theorem checksum_congr {b b' : List Byte} (h : rawSum b = rawSum b') : checksum b = checksum b' := by
  rw [checksum, checksum, foldedSum, foldedSum, h]

theorem checksum_nil : checksum [] = 0xFFFF := rfl

theorem foldedSum_eq_zero_iff (b : List Byte) : foldedSum b = 0 ↔ rawSum b = 0 := by
  constructor
  · intro h
    by_contra hne
    have hpos := foldedSum_pos (Nat.pos_of_ne_zero hne)
    omega
  · intro h
    rw [foldedSum, h]
    rfl

/-- Folding keeps the sum modulo 65535, so it ends at 0xFFFF on the positive multiples of 65535. -/
theorem foldedSum_eq_0xFFFF {b : List Byte} (hpos : 0 < rawSum b) (hmod : rawSum b % 65535 = 0) : foldedSum b = 0xFFFF := by
  have hlt := foldedSum_lt b
  have hm := foldedSum_mod b
  have hp := foldedSum_pos hpos
  omega

theorem checksum_eq_iff (b : List Byte) (v : Half) : checksum b = v ↔ foldedSum b + v.toNat = 65535 := by
  have hlt := foldedSum_lt b
  have hv := v.isLt
  rw [← BitVec.toNat_inj, checksum_toNat]
  omega

theorem checksum_eq_0xFFFF_iff (b : List Byte) : checksum b = 0xFFFF ↔ foldedSum b = 0 := by
  simp [checksum_eq_iff]

theorem checksum_eq_zero_iff (b : List Byte) : checksum b = 0 ↔ foldedSum b = 0xFFFF := by
  simp [checksum_eq_iff]

/-! ### A checksum field at an even index (R114) -/

/-- A 16-bit field at an even index adds its number to the sum. -/
theorem rawSum_field {before : List Byte} (h : before.length % 2 = 0) (v : Half) (after : List Byte) :
    rawSum (before ++ be16 v ++ after) = rawSum before + v.toNat + rawSum after := by
  have hlen : (before ++ be16 v).length % 2 = 0 := by simpa using h
  rw [rawSum_append _ after hlen, rawSum_append before _ h, rawSum_be16]

/-- With the checksum `65535 - F` in the field, where `F` is the sum `S` of the rest folded, the sum is `S + (65535 - F)`: a multiple of
65535, as `F` is `S` modulo 65535, and not 0, as `F` is 0 only if `S` is. -/
theorem foldedSum_checksum_field {before : List Byte} (h : before.length % 2 = 0) (after : List Byte) :
    foldedSum (before ++ be16 (checksum (before ++ be16 0 ++ after)) ++ after) = 0xFFFF := by
  have hS : rawSum (before ++ be16 0 ++ after) = rawSum before + rawSum after := rawSum_field h 0 after
  have hF := foldedSum_lt (before ++ be16 0 ++ after)
  have hmod := foldedSum_mod (before ++ be16 0 ++ after)
  have hzero := foldedSum_eq_zero_iff (before ++ be16 0 ++ after)
  apply foldedSum_eq_0xFFFF <;> rw [rawSum_field h, checksum_toNat] <;> omega

/-- The checksum field of an encoded TCP header stands at index 16. -/
theorem encodeTcp_with_csum (f : TcpHeader) (c : Half) :
    encodeTcp { f with csum := c } = (encodeTcp f).take 16 ++ be16 c ++ (encodeTcp f).drop 18 := rfl

/-- The checksum field of an encoded IPv4 header stands at index 10. -/
theorem encodeIp_with_csum (g : IpHeader) (c : Half) :
    encodeIp { g with csum := c } = (encodeIp g).take 10 ++ be16 c ++ (encodeIp g).drop 12 := rfl

/-- The TCP checksum field behind other bytes and before a payload, brought into the form of `foldedSum_checksum_field`. -/
theorem append_encodeTcp_with_csum (p d : List Byte) (f : TcpHeader) (c : Half) :
    p ++ (encodeTcp { f with csum := c } ++ d)
      = (p ++ (encodeTcp f).take 16) ++ be16 c ++ ((encodeTcp f).drop 18 ++ d) := by
  simp only [encodeTcp_with_csum, List.append_assoc]

theorem foldedSum_tcp_with_checksum {p : List Byte} (h : p.length % 2 = 0) (f : TcpHeader) (d : List Byte) :
    foldedSum (p ++ (encodeTcp { f with csum := checksum (p ++ (encodeTcp { f with csum := 0 } ++ d)) } ++ d)) = 0xFFFF := by
  have hlen : (p ++ (encodeTcp f).take 16).length % 2 = 0 := by
    simp only [List.length_append, List.length_take, encodeTcp_length]
    omega
  rw [append_encodeTcp_with_csum, append_encodeTcp_with_csum]
  exact foldedSum_checksum_field hlen _

theorem foldedSum_ip_with_checksum (g : IpHeader) :
    foldedSum (encodeIp { g with csum := checksum (encodeIp { g with csum := 0 }) }) = 0xFFFF := by
  have hlen : ((encodeIp g).take 10).length % 2 = 0 := by simp
  rw [encodeIp_with_csum g 0, encodeIp_with_csum g (checksum _)]
  exact foldedSum_checksum_field hlen _

/-! ### What a command stores in OBUF -/

theorem storesOutput_putObuf {b : List Byte} (h : b.length ≤ 65535) (s : State) : storesOutput s (putObuf b s) b := by
  refine ⟨?_, fun _ hk => readByte_putObuf_lt b s hk, fun _ hk => readByte_putObuf_ge b s hk,
    fun _ k hbuf => readByte_putObuf_other b s hbuf k⟩
  rw [putObuf_olen, BitVec.toNat_ofNat]
  omega

theorem storesOutput_finish {s t : State} {out : List Byte} (h : storesOutput s t out) : storesOutput s (finish t) out := by
  simpa [storesOutput] using h

/-- The pseudo-header as R112 writes it. -/
theorem pseudoHeader_eq (src dst : Word) (proto : Byte) (n : Half) :
    pseudoHeader src dst proto n = be32 src ++ be32 dst ++ [0x00] ++ [proto] ++ be16 n := rfl

theorem slice_zero (s : State) (b : Buf) (off : Nat) : s.slice b off 0 = [] := rfl

/-! ### The statements -/

/-- Settles O5: all four facts are about the sum of the words, of which the folded sum and the checksum are functions. -/
theorem checksumFacts : Obligations.ChecksumFacts := by
  refine ⟨checksum_nil, fun b n => checksum_congr (rawSum_append_replicate_zero b n), fun b => ?_,
    fun b b' h => checksum_congr h.sum_eq⟩
  have hzero : foldedSum b = 0 ↔ ∀ x ∈ b, x = 0 := (foldedSum_eq_zero_iff b).trans (rawSum_eq_zero_iff b)
  exact ⟨Nat.le_of_lt_succ (foldedSum_lt b), hzero, (checksum_eq_0xFFFF_iff b).trans hzero, checksum_eq_zero_iff b⟩

/-- Settles O7: the general case, and the two headers as cases of it; a checksum is 0 exactly on a folded sum of 0xFFFF. -/
theorem checksumVerifiesItself : Obligations.ChecksumVerifiesItself := by
  refine ⟨fun before after h => ?_, fun f d src dst proto n => ?_, fun g => ?_⟩
  · have hsum := foldedSum_checksum_field h after
    exact ⟨hsum, (checksum_eq_zero_iff _).mpr hsum⟩
  · have hsum := foldedSum_tcp_with_checksum (p := pseudoHeader src dst proto n) (by simp) f d
    exact ⟨rfl, hsum, (checksum_eq_zero_iff _).mpr hsum⟩
  · have hsum := foldedSum_ip_with_checksum g
    exact ⟨hsum, (checksum_eq_zero_iff _).mpr hsum⟩

/-- Settles O10: PSEUDO is `putObuf` of the pseudo-header, then `finish`. -/
theorem pseudoStoresThePseudoHeader : Obligations.PseudoStoresThePseudoHeader := by
  refine ⟨rfl, fun s => ⟨_, rfl, ?_, rfl, rfl⟩⟩
  rw [← pseudoHeader_eq]
  exact storesOutput_finish (storesOutput_putObuf (by simp) s)

/-- Settles O9: CSUM is `putCsum` of the checksum of its input, then `finish`; no byte is read if ILEN is 0. -/
theorem csumStoresTheChecksum : Obligations.CsumStoresTheChecksum := by
  refine ⟨rfl, fun s => ⟨rfl, fun h => ?_⟩⟩
  rw [h]
  exact (congrArg checksum (slice_zero s .ibuf 0)).trans checksum_nil

end Sys2Proof.Machine
end

section
/-! The header codec: reading a number back from its bytes, the two round trips, and the input of a decoding command as bytes of IBUF. The
statements of spec/41_header_codec.md about them are settled with these laws. -/

namespace Sys2Proof.Machine

open Sys2Proof.Claims

/-! ### Decoding what was encoded (R129) -/

theorem be16At_of_slice {b : List Byte} {k : Nat} {v : Half} (h : (b.drop k).take 2 = be16 v) : be16At b k = v := by
  have hslice : be16At b k = be16At ((b.drop k).take 2) 0 := by simp [be16At, byteAt]
  rw [hslice, h]
  exact be16At_be16 [] [] v

theorem be32At_of_slice {b : List Byte} {k : Nat} {v : Word} (h : (b.drop k).take 4 = be32 v) : be32At b k = v := by
  have hslice : be32At b k = be32At ((b.drop k).take 4) 0 := by simp [be32At, byteAt]
  rw [hslice, h]
  exact be32At_be32 [] [] v

/-- Each number of the record is read from the slice that is by computation its encoding; the two packed bytes are inverted by laws of
their own. -/
theorem decodeTcp_encodeTcp (f : TcpHeader) : decodeTcp (encodeTcp f) = some f := by
  have hdoff : offsetOfByte (byteAt (encodeTcp f) 12) = f.doff := offsetOfByte_offsetByte f.doff
  have hflags : flagsOfByte (byteAt (encodeTcp f) 13) = f.flags := flagsOfByte_flagByte f.flags
  rw [decodeTcp_of_long (encodeTcp_length f).ge, hdoff, hflags,
    be16At_of_slice (k := 0) (v := f.sport) rfl, be16At_of_slice (k := 2) (v := f.dport) rfl,
    be32At_of_slice (k := 4) (v := f.seq) rfl, be32At_of_slice (k := 8) (v := f.ack) rfl,
    be16At_of_slice (k := 14) (v := f.win) rfl, be16At_of_slice (k := 16) (v := f.csum) rfl,
    be16At_of_slice (k := 18) (v := f.urg) rfl]

theorem decodeIp_encodeIp (g : IpHeader) : decodeIp (encodeIp g) = some g := by
  have hver : versionOfByte (byteAt (encodeIp g) 0) = g.ver := versionOfByte_versionByte g.ver g.ihl
  have hihl : ihlOfByte (byteAt (encodeIp g) 0) = g.ihl := ihlOfByte_versionByte g.ver g.ihl
  rw [decodeIp_of_long (encodeIp_length g).ge, hver, hihl,
    be16At_of_slice (k := 2) (v := g.totlen) rfl, be16At_of_slice (k := 4) (v := g.id) rfl,
    be16At_of_slice (k := 6) (v := g.frag) rfl, be16At_of_slice (k := 10) (v := g.csum) rfl,
    be32At_of_slice (k := 12) (v := g.src) rfl, be32At_of_slice (k := 16) (v := g.dst) rfl]
  rfl

/-! ### Encoding what was decoded (R129) -/

theorem and_0xF0_eq_self {x : Byte} (h : x &&& 0x0F = 0) : x &&& 0xF0 = x := by
  revert x
  decide

theorem and_0x3F_eq_self {x : Byte} (h : x &&& 0xC0 = 0) : x &&& 0x3F = x := by
  revert x
  decide

theorem set_byteAt_self (b : List Byte) (k : Nat) : b.set k (byteAt b k) = b := by
  by_cases hk : k < b.length
  · rw [byteAt, List.getD_eq_getElem b 0 hk, List.set_getElem_self]
  · exact List.set_eq_of_length_le (Nat.le_of_not_lt hk)

theorem clearReserved_eq_self {b : List Byte} (h12 : byteAt b 12 &&& 0x0F = 0) (h13 : byteAt b 13 &&& 0xC0 = 0) :
    clearReserved b = b := by
  rw [clearReserved, and_0xF0_eq_self h12, and_0x3F_eq_self h13, set_byteAt_self, set_byteAt_self]

theorem byteAt_take {b : List Byte} {n k : Nat} (h : k < n) : byteAt (b.take n) k = byteAt b k := by
  simp [byteAt, h]

/-- The header comes back as it was exactly if its reserved bits are 0: an encoded header has none set, and without one there is
nothing that `clearReserved` clears. -/
theorem encodeTcp_eq_take_iff {b : List Byte} {f : TcpHeader} (h : decodeTcp b = some f) :
    encodeTcp f = b.take 20 ↔ byteAt b 12 &&& 0x0F = 0 ∧ byteAt b 13 &&& 0xC0 = 0 := by
  constructor
  · intro he
    have h12 : byteAt (encodeTcp f) 12 &&& 0x0F = 0 := offsetByte_and_0x0F f.doff
    have h13 : byteAt (encodeTcp f) 13 &&& 0xC0 = 0 := flagByte_and_0xC0 f.flags
    rw [he, byteAt_take (by decide)] at h12 h13
    exact ⟨h12, h13⟩
  · rintro ⟨h12, h13⟩
    rw [encodeTcp_of_decodeTcp h, clearReserved_eq_self h12 h13]

theorem versionByte_versionOfByte_ihlOfByte (x : Byte) : versionByte (versionOfByte x) (ihlOfByte x) = x := by
  revert x
  decide

/-- An IPv4 header has no reserved bits: encoding what was decoded gives its 20 bytes back. -/
theorem encodeIp_of_decodeIp {b : List Byte} {g : IpHeader} (hl : 20 ≤ b.length) (h : decodeIp b = some g) :
    encodeIp g = b.take 20 := by
  rw [decodeIp_of_long hl, Option.some.injEq] at h
  subst h
  rw [take20_eq b hl]
  simp [encodeIp, be16_be16At, be32_be32At, versionByte_versionOfByte_ihlOfByte, List.range_succ]

/-! ### The packed fields as numbers (R81, R82, R85) -/

theorem offsetOfByte_toNat (x : Byte) : (offsetOfByte x).toNat = x.toNat / 16 := by
  revert x
  decide

theorem flagsOfByte_toNat (x : Byte) : (flagsOfByte x).toNat = x.toNat % 64 := BitVec.toNat_setWidth 6 x

theorem versionOfByte_toNat (x : Byte) : (versionOfByte x).toNat = x.toNat / 16 := by
  revert x
  decide

theorem ihlOfByte_toNat (x : Byte) : (ihlOfByte x).toNat = x.toNat % 16 := BitVec.toNat_setWidth 4 x

/-- A header length, at most 60, fits the six bits of R_TCPHL and R_IPHL. -/
theorem ofNat_headerBytes_toNat (w : BitVec 4) : (BitVec.ofNat 6 (headerBytes w)).toNat = w.toNat * 4 := by
  have hw := w.isLt
  rw [BitVec.toNat_ofNat, headerBytes]
  omega

/-! ### The input of a command as bytes of IBUF -/

section
variable {s : State} {k : Nat}

theorem byteAt_input (h : k < s.block.ilen.toNat) : byteAt s.input k = s.readByte .ibuf k := by
  simp [byteAt, State.input, State.slice, h]

theorem be16At_input_toNat (h : k + 2 ≤ s.block.ilen.toNat) : (be16At s.input k).toNat = s.memRead .ibuf k 2 := by
  rw [be16At_toNat, byteAt_input (by omega), byteAt_input (by omega)]
  simp [State.memRead, State.slice, List.range_succ, beNumber]

theorem be32At_input_toNat (h : k + 4 ≤ s.block.ilen.toNat) : (be32At s.input k).toNat = s.memRead .ibuf k 4 := by
  rw [be32At_toNat, byteAt_input (by omega), byteAt_input (by omega), byteAt_input (by omega), byteAt_input (by omega)]
  simp [State.memRead, State.slice, List.range_succ, beNumber]
  omega

end

/-! ### The statements -/

/-- Settles O13: decoding inverts encoding on every record, and encoding inverts decoding up to the reserved bits of a TCP header. -/
theorem headerCodecsRoundTrip : Obligations.HeaderCodecsRoundTrip :=
  ⟨decodeTcp_encodeTcp, decodeIp_encodeIp,
    fun _ hl => ⟨_, decodeTcp_of_long hl, encodeTcp_eq_take_iff (decodeTcp_of_long hl)⟩,
    fun _ hl => ⟨_, decodeIp_of_long hl, encodeIp_of_decodeIp hl (decodeIp_of_long hl)⟩⟩

/-- Settles O15: ENC_TCP is `putObuf` of the encoded T file, then `finish`. -/
theorem encTcpStoresTheHeader : Obligations.EncTcpStoresTheHeader :=
  ⟨rfl, fun s => ⟨_, rfl, storesOutput_finish (storesOutput_putObuf (by simp) s), rfl, rfl⟩⟩

/-- Settles O17: ENC_IP is `putObuf` of the encoded I file, then `finish`. -/
theorem encIpStoresTheHeader : Obligations.EncIpStoresTheHeader :=
  ⟨rfl, fun s => ⟨_, rfl, storesOutput_finish (storesOutput_putObuf (by simp) s), rfl, rfl⟩⟩

/-- Settles O16: below 20 bytes decoding fails and DEC_TCP is a `raise`; else it is `putTcp` of the decoded input, then `finish`, and each
field of the input is read from IBUF. -/
theorem decTcpLoadsTheFields : Obligations.DecTcpLoadsTheFields := by
  refine ⟨rfl, fun s => ⟨fun hshort => ?_, fun hlong => ?_⟩⟩
  · exact execDecTcp_of_none (decodeTcp_of_short (by simpa using hshort))
  · have hdoff : (offsetOfByte (byteAt s.input 12)).toNat = (s.readByte .ibuf 12).toNat / 16 := by
      rw [offsetOfByte_toNat, byteAt_input (by omega)]
    have hflags : (flagsOfByte (byteAt s.input 13)).toNat = (s.readByte .ibuf 13).toNat % 64 := by
      rw [flagsOfByte_toNat, byteAt_input (by omega)]
    refine ⟨_, execDecTcp_of_some (decodeTcp_of_long (by simpa using hlong)),
      be16At_input_toNat (by omega), be16At_input_toNat (by omega), be32At_input_toNat (by omega), be32At_input_toNat (by omega),
      hdoff, hflags, be16At_input_toNat (by omega), be16At_input_toNat (by omega), be16At_input_toNat (by omega), ?_, rfl⟩
    rw [← hdoff]
    exact ofNat_headerBytes_toNat _

/-- Settles O18: as for DEC_TCP, with `putIp`. -/
theorem decIpLoadsTheFields : Obligations.DecIpLoadsTheFields := by
  refine ⟨rfl, fun s => ⟨fun hshort => ?_, fun hlong => ?_⟩⟩
  · exact execDecIp_of_none (decodeIp_of_short (by simpa using hshort))
  · have hver : (versionOfByte (byteAt s.input 0)).toNat = (s.readByte .ibuf 0).toNat / 16 := by
      rw [versionOfByte_toNat, byteAt_input (by omega)]
    have hihl : (ihlOfByte (byteAt s.input 0)).toNat = (s.readByte .ibuf 0).toNat % 16 := by
      rw [ihlOfByte_toNat, byteAt_input (by omega)]
    refine ⟨_, execDecIp_of_some (decodeIp_of_long (by simpa using hlong)), hver, hihl, byteAt_input (by omega),
      be16At_input_toNat (by omega), be16At_input_toNat (by omega), be16At_input_toNat (by omega), byteAt_input (by omega),
      byteAt_input (by omega), be16At_input_toNat (by omega), be32At_input_toNat (by omega), be32At_input_toNat (by omega), ?_, rfl⟩
    rw [← hihl]
    exact ofNat_headerBytes_toNat _

end Sys2Proof.Machine
end

section
/-! The packet builder: the two passes over a segment, the bytes of a built header and packet, and what BUILD_TCP, BUILD_IP and BUILD_PKT
store. The statements of spec/42_packet_builder.md about them are settled with these laws. -/

namespace Sys2Proof.Machine

open Sys2Proof.Claims

/-! ### The two passes of `build` (R140) -/

/-- Pass 1 with the pseudo-header written out as R140 has it. -/
theorem segmentChecksum_eq (f : TcpHeader) (d : List Byte) (src dst : Word) :
    segmentChecksum f d src dst = checksum (be32 src ++ be32 dst ++ [0x00, 0x06] ++ be16 (BitVec.ofNat 16 (20 + d.length))
      ++ (encodeTcp { f with csum := 0 } ++ d)) := rfl

/-- The csum field given is read by neither pass. -/
theorem buildSegment_with_csum (f : TcpHeader) (c : Half) (d : List Byte) (src dst : Word) :
    buildSegment { f with csum := c } d src dst = buildSegment f d src dst := rfl

/-- A 16-bit field at index `n` shows in bytes `n` and `n + 1` only. -/
theorem getElem?_field {before : List Byte} {n k : Nat} (hlen : before.length = n) (hn : k ≠ n) (hn1 : k ≠ n + 1) (u v : Half)
    (after : List Byte) : (before ++ be16 u ++ after)[k]? = (before ++ be16 v ++ after)[k]? := by
  subst hlen
  obtain hbefore | hafter : k < before.length ∨ before.length + 2 ≤ k := by omega
  · rw [List.append_assoc, List.append_assoc, List.getElem?_append_left hbefore, List.getElem?_append_left hbefore]
  · have hright (w : Half) : (before ++ be16 w ++ after)[k]? = after[k - (before.length + 2)]? := by
      rw [List.getElem?_append_right (by simpa using hafter), List.length_append, be16_length]
    rw [hright, hright]

/-- The checksum of a TCP header shows in bytes 16 and 17 of the segment only. -/
theorem getElem?_encodeTcp_with_csum {k : Nat} (h16 : k ≠ 16) (h17 : k ≠ 17) (f : TcpHeader) (c c' : Half) (d : List Byte) :
    (encodeTcp { f with csum := c } ++ d)[k]? = (encodeTcp { f with csum := c' } ++ d)[k]? := by
  have hsplit (w : Half) : encodeTcp { f with csum := w } ++ d = (encodeTcp f).take 16 ++ be16 w ++ ((encodeTcp f).drop 18 ++ d) :=
    append_encodeTcp_with_csum [] d f w
  rw [hsplit, hsplit]
  exact getElem?_field (n := 16) (by simp) h16 h17 c c' _

/-- Bytes 16 and 17 of a built segment hold its checksum. -/
theorem buildSegment_csum_bytes (f : TcpHeader) (d : List Byte) (src dst : Word) :
    ((buildSegment f d src dst).drop 16).take 2 = be16 (segmentChecksum f d src dst) := rfl

/-! ### The bytes of a built header and packet (R142, R144) -/

/-- A 16-bit total length as the sum of a register and a constant. -/
theorem ofNat_add_toNat (n : Nat) (x : Half) : BitVec.ofNat 16 (n + x.toNat) = x + BitVec.ofNat 16 n := by
  rw [Nat.add_comm, BitVec.ofNat_add, BitVec.ofNat_toNat, BitVec.setWidth_eq]

/-- It does not wrap as long as the number fits the field (R147). -/
theorem toNat_add_ofNat {n : Nat} {x : Half} (h : n + x.toNat ≤ 65535) : (x + BitVec.ofNat 16 n).toNat = n + x.toNat := by
  rw [← ofNat_add_toNat, BitVec.toNat_ofNat]
  omega

theorem buildIpHeader_of_register (x : Half) (src dst : Word) (id : Half) : buildIpHeader x.toNat src dst id =
    [0x45, 0x00] ++ be16 (x + 20) ++ be16 id ++ [0x00, 0x00, 0x40, 0x06, 0x00, 0x00] ++ be32 src ++ be32 dst := by
  rw [buildIpHeader_eq, ofNat_add_toNat]
  rfl

theorem buildPacket_of_length {d : List Byte} {x : Half} (h : d.length = x.toNat) (f : TcpHeader) (src dst : Word) (id : Half) :
    buildPacket f d src dst id =
      ([0x45, 0x00] ++ be16 (x + 40) ++ be16 id ++ [0x00, 0x00, 0x40, 0x06, 0x00, 0x00] ++ be32 src ++ be32 dst)
        ++ buildSegment f d src dst := by
  have htotal : 20 + (20 + x.toNat) = 40 + x.toNat := by omega
  rw [buildPacket, buildIpHeader_eq, buildSegment_length, h, htotal, ofNat_add_toNat]
  rfl

/-! ### What a command stores in OBUF -/

theorem storesOutput_putCsum {s t : State} {out : List Byte} (h : storesOutput s t out) (v : Half) :
    storesOutput s (putCsum v t) out := by
  simpa [storesOutput] using h

/-- BUILD_TCP and BUILD_PKT end with these three writes. -/
theorem storesOutput_finish_putCsum_putObuf {b : List Byte} (h : b.length ≤ 65535) (v : Half) (s : State) :
    storesOutput s (finish (putCsum v (putObuf b s))) b :=
  storesOutput_finish (storesOutput_putCsum (storesOutput_putObuf h s) v)

/-- Their frame: OBUF, OLEN, R_CSUM and ERR are all that they write. -/
theorem finish_putCsum_putObuf_frame (b : List Byte) (v : Half) (s : State) :
    finish (putCsum v (putObuf b s)) =
      { s with block :=
        { s.block with
          obuf := (finish (putCsum v (putObuf b s))).block.obuf
          olen := (finish (putCsum v (putObuf b s))).block.olen
          rCsum := (finish (putCsum v (putObuf b s))).block.rCsum
          err := .noError } } := rfl

/-- A number inside the stored output is read from the output's own bytes. -/
theorem memRead_of_storesOutput {s t : State} {out : List Byte} (h : storesOutput s t out) {k n : Nat} (hk : k + n ≤ out.length) :
    t.memRead .obuf k n = beNumber ((out.drop k).take n) := by
  obtain ⟨_, hfront, _, _⟩ := h
  have hslice : t.slice .obuf k n = (out.drop k).take n := by
    apply List.ext_getElem
    · simp; omega
    · intro j hj _
      rw [slice_length] at hj
      rw [slice_getElem, hfront (k + j) (by omega), List.getElem_take, List.getElem_drop]
  rw [State.memRead, hslice]

/-! ### The statements -/

/-- Settles O20: the two passes are those of `buildSegment` by definition, and the second differs from the first only in the checksum. -/
theorem buildIsTwoPass : Obligations.BuildIsTwoPass := by
  intro f d src dst _ h0 c
  have htwo : buildSegment f d src dst = encodeTcp { f with csum := c } ++ d := by rw [buildSegment, segmentChecksum_eq]
  refine ⟨htwo, buildSegment_length f d src dst, fun k h16 h17 => ?_, fun c' => buildSegment_with_csum f c' d src dst⟩
  rw [htwo]
  exact getElem?_encodeTcp_with_csum h16 h17 f c 0 d

/-- Settles O19: within the limit BUILD_TCP is `putObuf` of the built segment, `putCsum` of its checksum, then `finish`. -/
theorem buildTcpStoresTheSegment : Obligations.BuildTcpStoresTheSegment := by
  refine ⟨rfl, fun s => ⟨fun hlong => execBuildTcp_of_gt hlong, fun hfits => ?_⟩⟩
  have hlen : (buildSegment s.block.t s.payload s.block.a.srcIp s.block.a.dstIp).length = 20 + s.block.plen.toNat := by simp
  have hstores := storesOutput_finish_putCsum_putObuf (hlen.trans_le (by omega))
    (segmentChecksum s.block.t s.payload s.block.a.srcIp s.block.a.dstIp) s
  have ⟨holen, _⟩ := hstores
  refine ⟨_, execBuildTcp_of_le hfits, hstores, holen.trans hlen, rfl, ?_, finish_putCsum_putObuf_frame _ _ s⟩
  rw [memRead_of_storesOutput hstores (by omega), buildSegment_csum_bytes, beNumber_be16, finish_rCsum, putCsum_rCsum]

/-- Settles O21: within the limit BUILD_IP is `putObuf` of the built header, then `finish`. -/
theorem buildIpStoresTheHeader : Obligations.BuildIpStoresTheHeader := by
  refine ⟨rfl, fun s => ⟨fun hlong => execBuildIp_of_gt hlong,
    fun hfits => ⟨_, execBuildIp_of_le hfits, ?_, toNat_add_ofNat (n := 20) (by omega), rfl, rfl⟩⟩⟩
  rw [← buildIpHeader_of_register]
  exact storesOutput_finish (storesOutput_putObuf (by simp) s)

/-- Settles O22: as for BUILD_TCP, with the built packet. -/
theorem buildPktStoresThePacket : Obligations.BuildPktStoresThePacket := by
  refine ⟨rfl, fun s => ⟨fun hlong => execBuildPkt_of_gt hlong, fun hfits => ?_⟩⟩
  have hlen : (buildPacket s.block.t s.payload s.block.a.srcIp s.block.a.dstIp s.block.a.ipId).length = 40 + s.block.plen.toNat := by
    simp
  have hstores := storesOutput_finish_putCsum_putObuf (hlen.trans_le (by omega))
    (segmentChecksum s.block.t s.payload s.block.a.srcIp s.block.a.dstIp) s
  have ⟨holen, _⟩ := hstores
  refine ⟨_, execBuildPkt_of_le hfits, ?_, toNat_add_ofNat (n := 40) (by omega), holen.trans hlen, rfl,
    finish_putCsum_putObuf_frame _ _ s⟩
  rwa [← State.payload, ← buildPacket_of_length (payload_length s)]

end Sys2Proof.Machine
end

section
/-! The packet parser: the bytes a parse reads, the extent of the payload it finds, and its two inverse laws. The statements of
spec/43_packet_parser.md about them are settled with these laws. -/

namespace Sys2Proof.Machine

/-! ### Reading a slice of the bytes -/

theorem byteAt_slice (b : List Byte) {n m k : Nat} (h : k < m) : byteAt ((b.drop n).take m) k = byteAt b (n + k) := by
  rw [byteAt_take h]
  simp [byteAt]

theorem be16At_slice (b : List Byte) {n m k : Nat} (h : k + 2 ≤ m) : be16At ((b.drop n).take m) k = be16At b (n + k) := by
  simp only [be16At, byteAt_slice b (show k < m by omega), byteAt_slice b (show k + 1 < m by omega), Nat.add_assoc]

theorem be32At_slice (b : List Byte) {n m k : Nat} (h : k + 4 ≤ m) : be32At ((b.drop n).take m) k = be32At b (n + k) := by
  simp only [be32At, byteAt_slice b (show k < m by omega), byteAt_slice b (show k + 1 < m by omega),
    byteAt_slice b (show k + 2 < m by omega), byteAt_slice b (show k + 3 < m by omega), Nat.add_assoc]

/-- The length of an IPv4 header stands in its first byte, whatever follows the header. -/
theorem ipHeaderLength_append {hdr : List Byte} (h : 0 < hdr.length) (rest : List Byte) :
    ipHeaderLength (hdr ++ rest) = ipHeaderLength hdr := by
  rw [ipHeaderLength, ipHeaderLength, byteAt, byteAt, List.getD_append _ _ _ _ h]

theorem ipHeaderLength_eq (raw : List Byte) : ipHeaderLength raw = (byteAt raw 0).toNat % 16 * 4 := by
  rw [ipHeaderLength, headerBytes, ihlOfByte_toNat]

/-! ### What a parse finds (R155) -/

theorem parse_eq_none_iff (raw : List Byte) : parse raw = none ↔ raw.length < 1 ∨ raw.length < ipHeaderLength raw + 20 := by
  obtain ⟨hshort, hnone⟩ | ⟨hfirst, hlong, f, -, hsome⟩ := parse_cases raw
  · exact iff_of_true hnone hshort
  · exact iff_of_false (by simp [hsome]) (by omega)

/-- A packet found is the one whose TCP header is decoded from the 20 bytes behind the IPv4 header. -/
theorem eq_packetOf_of_parse {raw : List Byte} {r : ParsedPacket} (h : parse raw = some r) :
    ∃ f, decodeTcp ((raw.drop (ipHeaderLength raw)).take 20) = some f ∧ r = packetOf raw (ipHeaderLength raw) f := by
  obtain ⟨-, hnone⟩ | ⟨-, -, f, hf, hsome⟩ := parse_cases raw
  · simp [hnone] at h
  · exact ⟨f, hf, Option.some.inj (h.symm.trans hsome)⟩

/-- Each field of a TCP header decoded from the 20 bytes at `n` is read from its own place behind `n`. -/
theorem decodeTcp_slice {raw : List Byte} {n : Nat} {f : TcpHeader} (h : decodeTcp ((raw.drop n).take 20) = some f) :
    f = { sport := be16At raw n, dport := be16At raw (n + 2), seq := be32At raw (n + 4), ack := be32At raw (n + 8),
          doff := offsetOfByte (byteAt raw (n + 12)), flags := flagsOfByte (byteAt raw (n + 13)),
          win := be16At raw (n + 14), csum := be16At raw (n + 16), urg := be16At raw (n + 18) } := by
  obtain hshort | hlong := Nat.lt_or_ge ((raw.drop n).take 20).length 20
  · simp [decodeTcp_of_short hshort] at h
  · rw [decodeTcp_of_long hlong, Option.some.injEq] at h
    rw [← h]
    simp [be16At_slice, be32At_slice, byteAt_slice]

/-- A TCP header that lies where the IPv4 header ends is the one a parse finds. -/
theorem parse_of_encodeTcp {raw hdr d : List Byte} {f : TcpHeader} (hraw : raw = hdr ++ (encodeTcp f ++ d))
    (hihl : ipHeaderLength raw = hdr.length) : parse raw = some (packetOf raw hdr.length f) := by
  have hlen : raw.length = hdr.length + (20 + d.length) := by simp [hraw]
  have hslice : (raw.drop (ipHeaderLength raw)).take 20 = encodeTcp f := by
    rw [hihl, hraw, List.drop_left]
    rfl
  obtain ⟨hshort, -⟩ | ⟨-, -, g, hg, hsome⟩ := parse_cases raw
  · omega
  · rw [hslice, decodeTcp_encodeTcp, Option.some.injEq] at hg
    rw [hsome, hihl, hg]

/-! ### The extent of the payload (R157) -/

theorem packetOf_payoff_add_paylen (raw : List Byte) (n : Nat) (f : TcpHeader) :
    (packetOf raw n f).payoff + (packetOf raw n f).paylen = raw.length := by
  simp only [packetOf]
  omega

/-- The payload found is all that lies behind the two headers. -/
theorem packetOf_payload (raw : List Byte) (n : Nat) (f : TcpHeader) :
    (raw.drop (packetOf raw n f).payoff).take (packetOf raw n f).paylen = raw.drop (n + headerBytes f.doff) := by
  have hextent := packetOf_payoff_add_paylen raw n f
  rw [List.take_of_length_le (by rw [List.length_drop]; omega)]
  exact List.drop_eq_drop_min.symm

/-! ### PARSE (R156) -/

theorem exec_parse (s : State) : exec .parse s = .next (finish (putParsed (parse s.input) s)) := rfl

section
variable {raw : List Byte} (h : raw.length < 2 ^ 16) (n : Nat) (f : TcpHeader)
include h

/-- Index and length of a payload that ends within a buffer fit the 16 bits of P_PAYOFF and P_PAYLEN. -/
theorem parsedFile_payoff_toNat : (parsedFile (some (packetOf raw n f))).payoff.toNat = (packetOf raw n f).payoff :=
  Nat.mod_eq_of_lt (by have := packetOf_payoff_add_paylen raw n f; omega)

theorem parsedFile_paylen_toNat : (parsedFile (some (packetOf raw n f))).paylen.toNat = (packetOf raw n f).paylen :=
  Nat.mod_eq_of_lt (by have := packetOf_payoff_add_paylen raw n f; omega)

end

/-! ### Parsing what was built (R159) -/

theorem ipHeaderLength_buildIpHeader (n : Nat) (src dst : Word) (id : Half) : ipHeaderLength (buildIpHeader n src dst id) = 20 :=
  congrArg headerBytes (ihlOfByte_versionByte version defaultIhl)

/-- The checksum put into the header is not among the fields a packet has. -/
theorem parse_buildPacket (f : TcpHeader) (d : List Byte) (src dst : Word) (id : Half) :
    parse (buildPacket f d src dst id) = some (packetOf (buildPacket f d src dst id) 20 f) :=
  parse_of_encodeTcp (hdr := buildIpHeader (buildSegment f d src dst).length src dst id)
    (f := { f with csum := segmentChecksum f d src dst }) rfl
    ((ipHeaderLength_append (by simp) _).trans (ipHeaderLength_buildIpHeader ..))

theorem buildPacket_drop_40 (f : TcpHeader) (d : List Byte) (src dst : Word) (id : Half) :
    (buildPacket f d src dst id).drop 40 = d := rfl

/-- A payload that begins elsewhere than at byte 40 has another length than the one supplied, unless both are empty. -/
theorem buildPacket_drop_ne {f : TcpHeader} {d : List Byte} {src dst : Word} {id : Half} {n : Nat} (hn : n ≠ 40)
    (h : n < 40 ∨ d ≠ []) : (buildPacket f d src dst id).drop n ≠ d := by
  intro heq
  have hlen := congrArg List.length heq
  rw [List.length_drop, buildPacket_length] at hlen
  have hempty : d.length = 0 ∧ 40 < n := by omega
  exact h.elim (by omega) (· (List.length_eq_zero_iff.mp hempty.1))

/-! ### The statements -/

/-- Settles O25: the packet found is `packetOf` of the fields supplied, and its payload is the built packet from byte `20 + doff * 4`
on. -/
theorem parseInvertsBuild : Obligations.ParseInvertsBuild := by
  intro f d src dst id _
  have hlen := buildPacket_length f d src dst id
  have hpayload := packetOf_payload (buildPacket f d src dst id) 20 f
  refine ⟨_, parse_buildPacket f d src dst id, rfl, rfl, rfl, rfl, rfl, rfl, fun hdoff => ?_, fun hdoff => ?_⟩
  · have htcphl : headerBytes f.doff = 20 := by rw [hdoff]; rfl
    rw [htcphl, buildPacket_drop_40] at hpayload
    refine ⟨htcphl, ?_, ?_, hpayload⟩ <;> simp only [packetOf, htcphl, hlen] <;> omega
  · refine ⟨rfl, by rw [← hlen]; rfl, by rw [← hlen]; rfl, fun hother => ?_⟩
    rw [hpayload, headerBytes]
    have hne : f.doff.toNat ≠ 5 := fun h => hdoff (BitVec.eq_of_toNat_eq h)
    exact buildPacket_drop_ne (by omega) (hother.imp_left (by omega))

/-- Settles O23: the two outcomes of `parse_cases`, with the fields read by `decodeTcp_slice`. -/
theorem parseFindsAPacketOrNone : Obligations.ParseFindsAPacketOrNone := by
  refine fun raw => ⟨ipHeaderLength_eq raw ▸ parse_eq_none_iff raw, fun r hr => ?_⟩
  obtain ⟨f, hf, rfl⟩ := eq_packetOf_of_parse hr
  have hfields := decodeTcp_slice hf
  subst hfields
  exact ⟨ipHeaderLength_eq raw, congrArg (· * 4) (offsetOfByte_toNat _), rfl, rfl, rfl, rfl, flagsOfByte_toNat _, rfl,
    packetOf_payoff_add_paylen .., List.drop_eq_drop_min.symm⟩

/-- Settles O26: byte 0 makes the IPv4 header the 24 bytes of `hdr ++ opts`, behind which the TCP header lies. -/
theorem parseSkipsIpOptions : Obligations.ParseSkipsIpOptions := by
  intro hdr opts d f hhdr hbyte hopts hdoff
  have hihl : ipHeaderLength hdr = 24 := by rw [ipHeaderLength_eq, hbyte]; rfl
  have hlen : (hdr ++ opts).length = 24 := by rw [List.length_append, hhdr, hopts]
  have htcphl : headerBytes f.doff = 20 := by rw [hdoff]; rfl
  have hparse := parse_of_encodeTcp (raw := hdr ++ opts ++ encodeTcp f ++ d) (hdr := hdr ++ opts) (List.append_assoc ..)
    (by rw [hlen, List.append_assoc, List.append_assoc, ipHeaderLength_append (by omega), hihl])
  have htotal : (hdr ++ opts ++ encodeTcp f ++ d).length = 44 + d.length := by
    rw [List.length_append, List.length_append, hlen, encodeTcp_length]
  have hpayoff : min 44 (44 + d.length) = 44 := by omega
  rw [hparse, hlen, packetOf, htcphl, htotal, hpayoff, Nat.add_sub_cancel_left]

/-- Settles O27: the P file is `parsedFile` of the parse of the input; the header lengths found fit its six bits, and the extent, which
ends at ILEN, its 16. -/
theorem parseWritesThePFile : Obligations.ParseWritesThePFile := by
  refine ⟨rfl, fun s => ⟨_, exec_parse s, fun hnone => congrArg parsedFile hnone, fun r (hr : parse s.input = some r) => ?_, rfl⟩⟩
  have hfile : (finish (putParsed (parse s.input) s)).block.p = parsedFile (some r) := congrArg parsedFile hr
  obtain ⟨f, -, rfl⟩ := eq_packetOf_of_parse hr
  have hfits : s.input.length < 2 ^ 16 := (input_length s).trans_lt s.block.ilen.isLt
  have hpayoff := parsedFile_payoff_toNat hfits (ipHeaderLength s.input) f
  have hpaylen := parsedFile_paylen_toNat hfits (ipHeaderLength s.input) f
  refine hfile ▸ ⟨rfl, rfl, rfl, rfl, rfl, rfl, ofNat_headerBytes_toNat _, ofNat_headerBytes_toNat _, hpayoff, hpaylen, ?_⟩
  rw [hpayoff, hpaylen, packetOf_payoff_add_paylen, input_length]

end Sys2Proof.Machine
end

section
/-! The handshake controller: what CONNECT, a receive step of its wait, an acceptance, SEND and INIT do to the buffers, to the rest of
the block and to the transport, and what a step outside the wait shows. The statements of spec/44_handshake.md about them are settled
with these laws. -/

namespace Sys2Proof.Machine

open Sys2Proof.Claims

/-! ### A packet written to OBUF and sent (R172) -/

@[simp] theorem controllerPacket_length (c : ConnectionFile) (seq ack : Word) (flags : BitVec 6) (d : List Byte) :
    (controllerPacket c seq ack flags d).length = 40 + d.length := ctlPacket_length c seq ack flags d

theorem storesOutput_transmit {pkt : List Byte} (h : pkt.length ≤ 65535) (s : State) : storesOutput s (transmit pkt s) pkt := by
  simpa [storesOutput, transmit_eq] using storesOutput_putObuf h s

theorem transmit_env (pkt : List Byte) (s : State) :
    (transmit pkt s).env = (afterSend pkt s.block.c.remoteIp s).env := rfl

theorem transmit_block {pkt : List Byte} {n : Nat} (h : pkt.length = n) (s : State) : (transmit pkt s).block =
    { s.block with obuf := Memory.writeFront s.block.obuf pkt, olen := BitVec.ofNat 16 n } := h ▸ rfl

/-! ### CONNECT's first step (R171, R173) -/

theorem exec_connect_of_ne_closed {s : State} (h : s.block.conn ≠ .closed) : exec .connect s = .next (raise .illegalCommand s) :=
  congrArg Host.Outcome.next (if_neg h)

theorem exec_connect_of_closed {s : State} (h : s.block.conn = .closed) : exec .connect s = .next (openConnection s) :=
  congrArg Host.Outcome.next (if_pos h)

theorem synOf_length (s : State) : (synOf s).length = 40 := controllerPacket_length ..

/-- The SYN built from the registers that the draws have written. -/
theorem synPacket_drawn (s : State) : synPacket (drawn s) = synOf s := rfl

theorem transmit_drawn_env (pkt : List Byte) (s : State) :
    (transmit pkt (drawn s)).env = (afterSend pkt s.block.c.remoteIp (afterDraw16 (afterDraw32 s))).env := rfl

theorem openConnection_of_ok {s : State} (h : synAnswer s = .ok) :
    openConnection s = enterWait (putTimer hsTimeout (putConn .synSent (transmit (synOf s) (drawn s)))) := by
  have ha : sendAnswer (drawn s) = .ok := h
  simp only [openConnection, ha, synPacket_drawn]

theorem openConnection_of_error {s : State} (h : synAnswer s = .error) :
    openConnection s = raise .transportError (transmit (synOf s) (drawn s)) := by
  have ha : sendAnswer (drawn s) = .error := h
  simp only [openConnection, ha, synPacket_drawn]

theorem storesOutput_openConnection (s : State) : storesOutput s (openConnection s) (synOf s) := by
  have hsent := storesOutput_transmit ((synOf_length s).trans_le (by omega)) (drawn s)
  cases ha : synAnswer s with
  | ok => simpa [storesOutput, openConnection_of_ok ha] using hsent
  | error => simpa [storesOutput, openConnection_of_error ha] using hsent

theorem openConnection_env (s : State) :
    (openConnection s).env = (afterSend (synOf s) s.block.c.remoteIp (afterDraw16 (afterDraw32 s))).env := by
  cases ha : synAnswer s with
  | ok => simp [openConnection_of_ok ha, transmit_drawn_env]
  | error => simp [openConnection_of_error ha, transmit_drawn_env]

theorem openConnection_trace (s : State) : (openConnection s).env.trace = s.env.trace ++
    [.drew32 (draw32 s), .drew16 (draw16 (afterDraw32 s)), .sent (synOf s) s.block.c.remoteIp (synAnswer s)] := by
  rw [openConnection_env]
  simp [synAnswer]

theorem openConnection_block_of_ok {s : State} (h : synAnswer s = .ok) : (openConnection s).block =
    { s.block with
      c := { drawnFile s with timer := 5 }, conn := .synSent, busy := true, obuf := (openConnection s).block.obuf, olen := 40 } := by
  simp only [openConnection_of_ok h, enterWait, putTimer, putConn, transmit_block (synOf_length s)]
  rfl

theorem openConnection_block_of_error {s : State} (h : synAnswer s = .error) : (openConnection s).block =
    { s.block with
      c := drawnFile s, err := .transportError, busy := false, obuf := (openConnection s).block.obuf, olen := 40 } := by
  simp only [openConnection_of_error h, raise, transmit_block (synOf_length s)]
  rfl

/-! ### An acceptance (R177) -/

/-- The ACK that an acceptance of `p` sends, from the connection file before it (R177). -/
def ackOf (c : ConnectionFile) (p : ParsedPacket) : List Byte := controllerPacket (acceptedFile c p) p.ack (p.seq + 1) 0x10 []

theorem ackOf_length (c : ConnectionFile) (p : ParsedPacket) : (ackOf c p).length = 40 := controllerPacket_length ..

/-- The ACK built from the registers that now hold the peer's numbers. -/
theorem ackPacket_acceptNumbers (p : ParsedPacket) (s : State) : ackPacket (acceptNumbers p s) = ackOf s.block.c p := rfl

theorem transmit_acceptNumbers_env (pkt : List Byte) (p : ParsedPacket) (s : State) :
    (transmit pkt (acceptNumbers p s)).env = (afterSend pkt s.block.c.remoteIp s).env := rfl

theorem accept_of_ok {p : ParsedPacket} {s : State} (h : sendAnswer s = .ok) :
    accept p s = finish (leaveWait (putConn .established (transmit (ackOf s.block.c p) (acceptNumbers p s)))) := by
  have ha : sendAnswer (acceptNumbers p s) = .ok := h
  simp only [accept, ha, ackPacket_acceptNumbers]

theorem accept_of_error {p : ParsedPacket} {s : State} (h : sendAnswer s = .error) :
    accept p s = raise .transportError (transmit (ackOf s.block.c p) (acceptNumbers p s)) := by
  have ha : sendAnswer (acceptNumbers p s) = .error := h
  simp only [accept, ha, ackPacket_acceptNumbers]

theorem storesOutput_accept (p : ParsedPacket) (s : State) : storesOutput s (accept p s) (ackOf s.block.c p) := by
  have hsent := storesOutput_transmit ((ackOf_length s.block.c p).trans_le (by omega)) (acceptNumbers p s)
  cases ha : sendAnswer s with
  | ok => simpa [storesOutput, accept_of_ok ha, acceptNumbers] using hsent
  | error => simpa [storesOutput, accept_of_error ha, acceptNumbers] using hsent

theorem accept_env (p : ParsedPacket) (s : State) :
    (accept p s).env = (afterSend (ackOf s.block.c p) s.block.c.remoteIp s).env := by
  cases ha : sendAnswer s with
  | ok => simp [accept_of_ok ha, transmit_acceptNumbers_env]
  | error => simp [accept_of_error ha, transmit_acceptNumbers_env]

theorem accept_block_of_ok {p : ParsedPacket} {s : State} (h : sendAnswer s = .ok) : (accept p s).block =
    { s.block with
      c := acceptedFile s.block.c p, conn := .established, busy := false, err := .noError, obuf := (accept p s).block.obuf,
      olen := 40 } := by
  simp only [accept_of_ok h, finish, leaveWait, putConn, transmit_block (ackOf_length s.block.c p)]
  rfl

theorem accept_block_of_error {p : ParsedPacket} {s : State} (h : sendAnswer s = .error) : (accept p s).block =
    { s.block with
      c := acceptedFile s.block.c p, busy := false, err := .transportError, obuf := (accept p s).block.obuf, olen := 40 } := by
  simp only [accept_of_error h, raise, transmit_block (ackOf_length s.block.c p)]
  rfl

/-- Whatever the transport answers, an acceptance takes the peer's numbers and keeps what has been received. -/
theorem accept_keeps_received (p : ParsedPacket) (s : State) :
    (accept p s).block.c = acceptedFile s.block.c p ∧ (accept p s).block.p = s.block.p
    ∧ (accept p s).block.ibuf = s.block.ibuf ∧ (accept p s).block.ilen = s.block.ilen := by
  cases ha : sendAnswer s with
  | ok => rw [accept_block_of_ok ha]; exact ⟨rfl, rfl, rfl, rfl⟩
  | error => rw [accept_block_of_error ha]; exact ⟨rfl, rfl, rfl, rfl⟩

/-! ### A receive step of the wait (R175, R176) -/

/-- The state after a poll answered with the bytes `got`, kept in IBUF, ILEN and the P file, before they are judged (R175). -/
def received (got : List Byte) (s : State) : State := putParsed (parse got) (putIbuf got (afterRecv s))

theorem received_trace (got : List Byte) (s : State) :
    (received got s).env.trace = s.env.trace ++ [.polled 65535 (recvAnswer s)] := rfl

theorem storesInput_received {got : List Byte} (h : got.length ≤ 65535) (s : State) : storesInput s (received got s) got := by
  refine ⟨?_, fun k hk => ?_, fun k hk => ?_⟩
  · rw [received, putParsed_ilen, putIbuf_ilen, BitVec.toNat_ofNat]
    omega
  · rw [received, readByte_putParsed, readByte_putIbuf_lt _ _ hk]
  · rw [received, readByte_putParsed, readByte_putIbuf_ge _ _ hk, readByte_afterRecv]

theorem readByte_received_other (got : List Byte) (s : State) {b : Buf} (h : b ≠ .ibuf) (k : Nat) :
    (received got s).readByte b k = s.readByte b k := by
  rw [received, readByte_putParsed, readByte_putIbuf_other _ _ h, readByte_afterRecv]

/-- `awaited` is the flow filter together with the test of the two flags. -/
theorem awaited_iff (c : ConnectionFile) (p : ParsedPacket) :
    awaited c p ↔ (matchesFlow c p && isSynAck p.flags) = true := by
  have hflags : flagSyn ||| flagAck = 0x12 := rfl
  simp [awaited, matchesFlow, isSynAck, hflags, and_assoc]

theorem receiveStep_of_timeout {s : State} (h : recvAnswer s = .timeout) : receiveStep s = afterRecv s := by
  simp only [receiveStep, h]

theorem receiveStep_of_error {s : State} (h : recvAnswer s = .error) : receiveStep s = raise .transportError (afterRecv s) := by
  simp only [receiveStep, h]

theorem receiveStep_of_bytes {s : State} {got : List Byte} (h : recvAnswer s = .bytes got) :
    receiveStep s = judge (parse got) (received got s) := by
  simp only [receiveStep, h, received]

/-- Where there is no packet, or one that is not awaited, the wait goes on. -/
theorem judge_of_not_awaited {r : Option ParsedPacket} {s : State} (h : ∀ p, r = some p → ¬ awaited s.block.c p) : judge r s = s := by
  cases r with
  | none => rfl
  | some p => exact if_neg (mt (awaited_iff s.block.c p).mpr (h p rfl))

theorem judge_of_awaited {p : ParsedPacket} {s : State} (h : awaited s.block.c p) : judge (some p) s = accept p s :=
  if_pos ((awaited_iff s.block.c p).mp h)

section
variable {s : State} {rest : List Event} (he : s.env.events = .rx :: rest) (hb : s.block.busy = true)
include he hb

theorem step_rx_of_busy : step s = .next (receiveStep (setEvents rest s)) :=
  step_of_done he (by simp only [takeEvent, setEvents_block, hb, if_true])

/-- The whole of a receive step that ignores what came. -/
theorem step_rx_of_ignored {got : List Byte} (ha : recvAnswer s = .bytes got)
    (hp : ∀ p, parse got = some p → ¬ awaited s.block.c p) : step s = .next (received got (setEvents rest s)) := by
  rw [step_rx_of_busy he hb, receiveStep_of_bytes (s := setEvents rest s) ha,
    judge_of_not_awaited (s := received got (setEvents rest s)) hp]

/-- The whole of a receive step that accepts what came. -/
theorem step_rx_of_awaited {got : List Byte} {p : ParsedPacket} (ha : recvAnswer s = .bytes got) (hp : parse got = some p)
    (hw : awaited s.block.c p) : step s = .next (accept p (received got (setEvents rest s))) := by
  rw [step_rx_of_busy he hb, receiveStep_of_bytes (s := setEvents rest s) ha, hp,
    judge_of_awaited (s := received got (setEvents rest s)) hw]

end

/-! ### SEND (R181) -/

/-- The data packet with its flags and its payload as R181 writes them. -/
theorem dataPacket_eq (s : State) : dataPacket s =
    controllerPacket s.block.c s.block.c.seq s.block.c.ack 0x18 (s.slice .pbuf 0 s.block.plen.toNat) := rfl

theorem dataPacket_length (s : State) : (dataPacket s).length = 40 + s.block.plen.toNat := by simp [dataPacket]

theorem exec_send_of_ne_established {s : State} (h : s.block.conn ≠ .established) : exec .send s = .next (raise .notConnected s) :=
  congrArg Host.Outcome.next (if_pos h)

theorem exec_send_of_gt {s : State} (hc : s.block.conn = .established) (hl : 65495 < s.block.plen.toNat) :
    exec .send s = .next (raise .badLength s) := by
  have htotal : ipHdrBytes + tcpHdrBytes + s.block.plen.toNat > lengthFieldMax := by
    simp only [ipHdrBytes, tcpHdrBytes, lengthFieldMax]
    omega
  simp only [exec, execSend, hc, ne_eq, not_true_eq_false, if_false, if_pos htotal]

theorem exec_send_of_le {s : State} (hc : s.block.conn = .established) (hl : s.block.plen.toNat ≤ 65495) :
    exec .send s = .next (sendData s) := by
  have htotal : ¬ ipHdrBytes + tcpHdrBytes + s.block.plen.toNat > lengthFieldMax := by
    simp only [ipHdrBytes, tcpHdrBytes, lengthFieldMax]
    omega
  simp only [exec, execSend, hc, ne_eq, not_true_eq_false, if_false, if_neg htotal]

theorem sendData_of_ok {s : State} (h : sendAnswer s = .ok) : sendData s = finish (advanceSeq (transmit (dataPacket s) s)) := by
  simp only [sendData, h]

theorem sendData_of_error {s : State} (h : sendAnswer s = .error) :
    sendData s = raise .transportError (transmit (dataPacket s) s) := by
  simp only [sendData, h]

theorem storesOutput_sendData {s : State} (h : s.block.plen.toNat ≤ 65495) : storesOutput s (sendData s) (dataPacket s) := by
  have hsent := storesOutput_transmit ((dataPacket_length s).trans_le (by omega)) s
  cases ha : sendAnswer s with
  | ok => simpa [storesOutput, sendData_of_ok ha, advanceSeq] using hsent
  | error => simpa [storesOutput, sendData_of_error ha] using hsent

theorem sendData_env (s : State) : (sendData s).env = (afterSend (dataPacket s) s.block.c.remoteIp s).env := by
  cases ha : sendAnswer s with
  | ok => simp [sendData_of_ok ha, advanceSeq, transmit_env]
  | error => simp [sendData_of_error ha, transmit_env]

theorem sendData_trace (s : State) :
    (sendData s).env.trace = s.env.trace ++ [.sent (dataPacket s) s.block.c.remoteIp (sendAnswer s)] := by
  rw [sendData_env, afterSend_trace]

theorem sendData_seq_of_ok {s : State} (h : sendAnswer s = .ok) :
    (sendData s).block.c.seq.toNat = (s.block.c.seq.toNat + s.block.plen.toNat) % 2 ^ 32 := by
  have hseq : (sendData s).block.c.seq = s.block.c.seq + s.block.plen.setWidth 32 := by rw [sendData_of_ok h]; rfl
  rw [hseq, BitVec.toNat_add, BitVec.toNat_setWidth_of_le (by omega)]

theorem sendData_block_of_ok {s : State} (h : sendAnswer s = .ok) : (sendData s).block =
    { s.block with
      c := { s.block.c with seq := (sendData s).block.c.seq }, err := .noError, obuf := (sendData s).block.obuf,
      olen := (sendData s).block.olen } := by
  simp only [sendData_of_ok h, finish, advanceSeq, putNumbers, transmit_block (dataPacket_length s)]

theorem sendData_block_of_error {s : State} (h : sendAnswer s = .error) : (sendData s).block =
    { s.block with
      err := .transportError, busy := false, obuf := (sendData s).block.obuf, olen := (sendData s).block.olen } := by
  simp only [sendData_of_error h, raise, transmit_block (dataPacket_length s)]

/-! ### What a command and a step outside the wait show (R182) -/

/-- Everything a command can do to the transport, the draws and the connection file: nothing, unless it is a CONNECT in CLOSED, a SEND in
ESTABLISHED or INIT. -/
theorem exec_connection_cases {i : Instr} {s t : State} (h : exec i s = .next t) :
    (t.env.trace = s.env.trace ∧ t.block.c = s.block.c)
    ∨ (s.block.conn = .closed ∧ t = openConnection s)
    ∨ (s.block.conn = .established ∧ t = sendData s)
    ∨ t = resetBlock s := by
  obtain ⟨-, rfl⟩ | ⟨b, -, -, rfl⟩ | ⟨-, rfl⟩ | ⟨f, -, rfl⟩ | ⟨g, -, rfl⟩ | ⟨-, rfl⟩ | ⟨b, v, -, -, rfl⟩ | ⟨-, rfl⟩ | ⟨-, -, rfl⟩
    | ⟨rfl, hc, -⟩ | ⟨rfl, hc, -⟩ | ⟨-, -, rfl⟩ | ⟨-, -, rfl⟩ | ⟨rfl, hc, hl, -⟩ | ⟨rfl, hc, hl, -⟩ | ⟨-, hinit⟩ := exec_cases h
  -- the commands other than CONNECT, SEND and INIT, and a CONNECT refused
  iterate 9 exact .inl ⟨rfl, rfl⟩
  -- a CONNECT in CLOSED, with either answer to its send
  iterate 2 exact .inr (.inl ⟨hc, Host.Outcome.next.inj (h.symm.trans (exec_connect_of_closed hc))⟩)
  -- a SEND refused
  iterate 2 exact .inl ⟨rfl, rfl⟩
  -- a SEND of data, with either answer
  iterate 2 exact .inr (.inr (.inl ⟨hc, Host.Outcome.next.inj (h.symm.trans (exec_send_of_le hc (by omega)))⟩))
  exact .inr (.inr (.inr hinit))

/-- Nothing that `t` shows beyond `s` is a poll of the transport. -/
def showsNoPoll (s t : State) : Prop := ∀ m r, Obs.polled m r ∉ t.env.trace.drop s.env.trace.length

theorem showsNoPoll_of_append {s t : State} {shown : List Obs} (h : t.env.trace = s.env.trace ++ shown)
    (hs : ∀ m r, Obs.polled m r ∉ shown) : showsNoPoll s t := by
  rwa [showsNoPoll, h, List.drop_left]

theorem showsNoPoll_of_trace_eq {s t : State} (h : t.env.trace = s.env.trace) : showsNoPoll s t :=
  showsNoPoll_of_append (h.trans (List.append_nil _).symm) (by simp)

/-- C_ACK and C_LOCAL_PORT are the same in both states. -/
def keepsFlow (s t : State) : Prop := t.block.c.ack = s.block.c.ack ∧ t.block.c.localPort = s.block.c.localPort

/-- The host cannot write the two registers. -/
theorem writeNumber_keepsFlow (n : Nat) (v : Word) (s : State) : keepsFlow s { s with block := writeNumber n v s.block } := by
  unfold keepsFlow writeNumber
  cases regOfNumber n with
  | none => exact ⟨rfl, rfl⟩
  | some r => cases r <;> exact ⟨rfl, rfl⟩

theorem hostBufWrite_keepsFlow (b : Buf) (k : Nat) (v : Byte) (s : State) :
    keepsFlow s { s with block := writeBuf b k v s.block } := by
  cases b <;> exact ⟨rfl, rfl⟩

theorem keepsFlow_of_c_eq {s t : State} (h : t.block.c = s.block.c) : keepsFlow s t := by rw [keepsFlow, h]; exact ⟨rfl, rfl⟩

theorem sendData_keepsFlow (s : State) : keepsFlow s (sendData s) := by
  cases ha : sendAnswer s with
  | ok => rw [sendData_of_ok ha]; exact ⟨rfl, rfl⟩
  | error => rw [sendData_of_error ha]; exact ⟨rfl, rfl⟩

theorem exec_shows_no_poll {i : Instr} {s t : State} (h : exec i s = .next t) : showsNoPoll s t := by
  obtain ⟨htrace, -⟩ | ⟨-, rfl⟩ | ⟨-, rfl⟩ | rfl := exec_connection_cases h
  · exact showsNoPoll_of_trace_eq htrace
  · exact showsNoPoll_of_append (openConnection_trace s) (by simp)
  · exact showsNoPoll_of_append (sendData_trace s) (by simp)
  · exact showsNoPoll_of_trace_eq rfl

/-- SEND writes C_SEQ alone of the connection file; CONNECT is refused, and INIT closes the connection. -/
theorem exec_keeps_flow {i : Instr} {s t : State} (h : exec i s = .next t) (hs : s.block.conn = .established)
    (ht : t.block.conn = .established) : keepsFlow s t := by
  obtain ⟨-, hc⟩ | ⟨hclosed, -⟩ | ⟨-, rfl⟩ | rfl := exec_connection_cases h
  · exact keepsFlow_of_c_eq hc
  · simp [hs] at hclosed
  · exact sendData_keepsFlow s
  · cases ht

/-- Everything a step can do that is not one of the wait: a command; the reset input; or what shows no poll and keeps the two
registers. -/
theorem step_cases_of_idle {s t : State} (hb : s.block.busy = false) (h : step s = .next t) :
    (∃ i rest, exec i (setEvents rest s) = .next t)
    ∨ (∃ rest, t = resetBlock (setEvents rest s))
    ∨ (showsNoPoll s t ∧ keepsFlow s t) := by
  obtain ⟨-, rfl⟩ | ⟨e, rest, -, hcases⟩ := step_cases h
  · exact .inr (.inr ⟨showsNoPoll_of_trace_eq rfl, rfl, rfl⟩)
  obtain ⟨n, -, rfl⟩ | ⟨b, k, -, -, rfl⟩ | ⟨n, v, -, -, rfl⟩ | ⟨b, k, v, -, -, rfl⟩ | ⟨w, -, hbusy, -⟩ | ⟨w, er, -, -, -, rfl⟩
    | ⟨w, i, -, -, -, hexec⟩ | ⟨-, hbusy, -⟩ | ⟨-, -, rfl⟩ | ⟨-, hbusy, -⟩ | ⟨-, -, rfl⟩ | ⟨-, rfl⟩ := hcases
  · exact .inr (.inr ⟨showsNoPoll_of_append (shown := [_]) rfl (by simp), rfl, rfl⟩)
  · exact .inr (.inr ⟨showsNoPoll_of_append (shown := [_]) rfl (by simp), rfl, rfl⟩)
  · rw [hostWrite_of_idle (s := setEvents rest s) hb]
    exact .inr (.inr ⟨showsNoPoll_of_trace_eq rfl, writeNumber_keepsFlow n v (setEvents rest s)⟩)
  · rw [hostBufWrite_of_idle (s := setEvents rest s) hb]
    exact .inr (.inr ⟨showsNoPoll_of_trace_eq rfl, hostBufWrite_keepsFlow b k v (setEvents rest s)⟩)
  · simp [hb] at hbusy
  · exact .inr (.inr ⟨showsNoPoll_of_trace_eq rfl, rfl, rfl⟩)
  · exact .inl ⟨i, rest, hexec⟩
  · simp [hb] at hbusy
  · exact .inr (.inr ⟨showsNoPoll_of_trace_eq rfl, rfl, rfl⟩)
  · simp [hb] at hbusy
  · exact .inr (.inr ⟨showsNoPoll_of_trace_eq rfl, rfl, rfl⟩)
  · exact .inr (.inl ⟨rest, rfl⟩)

theorem step_shows_no_poll {s t : State} (hb : s.block.busy = false) (h : step s = .next t) : showsNoPoll s t := by
  obtain ⟨i, rest, hexec⟩ | ⟨rest, rfl⟩ | ⟨hshow, -⟩ := step_cases_of_idle hb h
  · exact exec_shows_no_poll (s := setEvents rest s) hexec
  · exact showsNoPoll_of_trace_eq rfl
  · exact hshow

theorem step_keeps_flow {s t : State} (hb : s.block.busy = false) (h : step s = .next t) (hs : s.block.conn = .established)
    (ht : t.block.conn = .established) : keepsFlow s t := by
  obtain ⟨i, rest, hexec⟩ | ⟨rest, rfl⟩ | ⟨-, hkeep⟩ := step_cases_of_idle hb h
  · exact exec_keeps_flow (s := setEvents rest s) hexec hs ht
  · cases ht
  · exact hkeep

/-- A connection that is established does not wait. -/
theorem not_busy_of_established {s : State} (hinv : s.Inv) (hs : s.block.conn = .established) : s.block.busy = false := by
  obtain ⟨-, -, hwait, -⟩ := hinv
  cases hb : s.block.busy with
  | false => rfl
  | true =>
    obtain ⟨hsyn, -⟩ := hwait hb
    simp [hs] at hsyn

/-! ### The statements -/

/-- Settles O28: CONNECT in CLOSED is `openConnection`, of which every clause is a law above. -/
theorem connectSendsTheSyn : Obligations.ConnectSendsTheSyn :=
  ⟨rfl, fun s => ⟨exec_connect_of_ne_closed, fun hc => ⟨_, exec_connect_of_closed hc, storesOutput_openConnection s,
    openConnection_env s, openConnection_trace s, openConnection_block_of_ok, openConnection_block_of_error⟩⟩⟩

/-- Settles O29: the four answers of the transport and of the parser; an acceptance keeps what has been received. -/
theorem receiveStepOfTheWait : Obligations.ReceiveStepOfTheWait := by
  refine fun s rest he hb => ⟨fun ha => ?_, fun ha => ?_, fun got ha hp => ?_, fun got p ha hp hw => ?_⟩
  · rw [step_rx_of_busy he hb, receiveStep_of_timeout (s := setEvents rest s) ha]
    rfl
  · exact ⟨_, (step_rx_of_busy he hb).trans (congrArg _ (receiveStep_of_error (s := setEvents rest s) ha)), rfl, rfl⟩
  · exact ⟨_, step_rx_of_ignored he hb ha hp, storesInput_received (recvAnswer_bytes_length ha) (setEvents rest s),
      fun b k hbuf => readByte_received_other got (setEvents rest s) hbuf k, rfl, rfl⟩
  · obtain ⟨hilen, hfront, hback⟩ := storesInput_received (recvAnswer_bytes_length ha) (setEvents rest s)
    obtain ⟨-, -, -, hother⟩ := storesOutput_accept p (received got (setEvents rest s))
    obtain ⟨hc, hpfile, -, hkeep⟩ := accept_keeps_received p (received got (setEvents rest s))
    have hibuf := fun k => hother .ibuf k (by decide)
    exact ⟨_, step_rx_of_awaited he hb ha hp hw, ⟨hkeep ▸ hilen, fun k hk => (hibuf k).trans (hfront k hk),
      fun k hk => (hibuf k).trans (hback k hk)⟩, hpfile.trans (congrArg parsedFile hp), hc⟩

/-- Settles O30: the step is `accept` of the state that has kept the received bytes. -/
theorem acceptanceSendsTheAck : Obligations.AcceptanceSendsTheAck := by
  intro s rest got p he hb ha hp hw
  obtain ⟨holen, hfront, hback, hother⟩ := storesOutput_accept p (received got (setEvents rest s))
  obtain ⟨-, -, hibuf, hilen⟩ := accept_keeps_received p (received got (setEvents rest s))
  have hbytes := fun {b} hb => readByte_received_other got (setEvents rest s) (b := b) hb
  have hlen := ackOf_length s.block.c p
  refine ⟨BitVec.toNat_add p.seq 1, _, step_rx_of_awaited he hb ha hp hw, BitVec.eq_of_toNat_eq (holen.trans hlen), hfront,
    fun k hk => (hback k (hlen.trans_le hk)).trans (hbytes (by decide) k),
    fun k => (hother .pbuf k (by decide)).trans (hbytes (by decide) k), ?_, fun hok => ?_, fun herror => ?_⟩
  · rw [accept_env, afterSend_trace, received_trace, List.append_assoc, ← ha]
    rfl
  · rw [hibuf, hilen, ← hp]
    exact accept_block_of_ok (s := received got (setEvents rest s)) hok
  · rw [hibuf, hilen, ← hp]
    exact accept_block_of_error (s := received got (setEvents rest s)) herror

/-- Settles O32: SEND in ESTABLISHED with a payload that fits is `sendData`, of which every clause is a law above. -/
theorem sendFramesTheData : Obligations.SendFramesTheData := by
  refine ⟨rfl, fun s => ⟨exec_send_of_ne_established, exec_send_of_gt, fun hc hl => ?_⟩⟩
  have hstores := storesOutput_sendData hl
  have ⟨holen, _⟩ := hstores
  rw [← dataPacket_eq]
  refine ⟨_, exec_send_of_le hc hl, hstores, holen.trans (dataPacket_length s), sendData_env s, sendData_trace s,
    fun ha => ⟨sendData_seq_of_ok ha, sendData_block_of_ok ha⟩, sendData_block_of_error⟩

/-- Settles O52: under the invariant an ESTABLISHED block is in IDLE, where no step polls. -/
theorem establishedNeverReceives : Obligations.EstablishedNeverReceives := by
  refine ⟨fun s t hb hstep => step_shows_no_poll hb hstep, fun s t hinv hs hstep => ?_⟩
  have hb := not_busy_of_established hinv hs
  exact ⟨step_shows_no_poll hb hstep, step_keeps_flow hb hstep hs⟩

/-- Settles O33: INIT is `resetBlock`; while busy its word is dropped as every write to CMD is. -/
theorem initGivesTheResetState : Obligations.InitGivesTheResetState :=
  ⟨rfl, fun _ => ⟨_, rfl, rfl, fun b _ => by cases b <;> rfl, rfl⟩, fun _ _ he hb => step_command_of_busy he hb⟩

end Sys2Proof.Machine
end

section
/-! NotConnected: which command raises it, and what it leaves unchanged (spec/60_exceptions.md R203). -/

namespace Sys2Proof.Machine

open Sys2Proof.Claims

/-- An exception changes no byte of a buffer, no C register, neither OLEN nor CONN, and nothing of the environment. -/
theorem raise_keeps_io (e : Err) (s : State) :
    (raise e s).env = s.env ∧ sameBytes s (raise e s) ∧ (raise e s).block.olen = s.block.olen ∧ (raise e s).block.c = s.block.c
    ∧ (raise e s).block.conn = s.block.conn :=
  ⟨rfl, readByte_raise e s, rfl, rfl, rfl⟩

/-- A command after which ERR is NotConnected found it there, or is a SEND outside ESTABLISHED. -/
theorem exec_notConnected_cases {i : Instr} {s t : State} (h : exec i s = .next t) (ht : t.block.err = .notConnected) :
    s.block.err = .notConnected ∨ (i = .send ∧ s.block.conn ≠ .established) := by
  obtain ⟨-, rfl⟩ | ⟨b, -, -, rfl⟩ | ⟨-, rfl⟩ | ⟨f, -, rfl⟩ | ⟨g, -, rfl⟩ | ⟨-, rfl⟩ | ⟨b, v, -, -, rfl⟩ | ⟨-, rfl⟩ | ⟨-, -, rfl⟩
    | ⟨-, -, rfl⟩ | ⟨-, -, rfl⟩ | ⟨hi, hc, -⟩ | ⟨-, -, rfl⟩ | ⟨-, -, -, rfl⟩ | ⟨-, -, -, rfl⟩ | ⟨-, rfl⟩ := exec_cases h
  -- the commands other than CONNECT, SEND and INIT, and a CONNECT that ends: another code
  iterate 10 cases ht
  -- a CONNECT that goes on to wait keeps ERR
  · exact .inl ht
  -- a SEND outside ESTABLISHED
  · exact .inr ⟨hi, hc⟩
  -- a SEND in ESTABLISHED, and INIT: another code
  iterate 4 cases ht

/-- Settles O34: outside ESTABLISHED a SEND is `raise .notConnected`, and `exec_notConnected_cases` lists what can leave that code. -/
theorem notConnectedMeansNoIo : Obligations.NotConnectedMeansNoIo := by
  refine ⟨fun s t hc h => ?_, fun i s t hs h ht => (exec_notConnected_cases h ht).resolve_left hs⟩
  obtain rfl : raise .notConnected s = t := Host.Outcome.next.inj ((exec_send_of_ne_established hc).symm.trans h)
  exact ⟨rfl, raise_keeps_io .notConnected s⟩

end Sys2Proof.Machine
end

section
/-! The reset input: what one step does with it, in any state (spec/70_reset_and_hazards.md R230, R231). -/

namespace Sys2Proof.Machine

open Sys2Proof.Claims

/-- R231: the reset acts in every state, whether BUSY is 0 or 1. -/
theorem step_reset {s : State} {rest : List Event} (he : s.env.events = .reset :: rest) :
    step s = .next (resetBlock (setEvents rest s)) :=
  step_of_done he rfl

/-- Settles O36: the step takes its event and is then `resetBlock`, whose laws are the three clauses. -/
theorem resetAtAnyTime : Obligations.ResetAtAnyTime :=
  fun _ _ he => ⟨_, step_reset he, resetBlock_block _, resetBlock_trace _, resetBlock_events _⟩

end Sys2Proof.Machine
end

section
/-! CONNECT's wait: what a tick and a receive step do to BUSY, CONN, ERR, C_TIMER and the schedule, on each of their outcomes
(spec/44_handshake.md R175, R177, R178). -/

namespace Sys2Proof.Machine

open Sys2Proof.Claims

/-! ### The tick (R178) -/

theorem toNat_sub_one {v : BitVec 3} (h : 1 ≤ v.toNat) : (v - 1).toNat = v.toNat - 1 := by
  have hv := v.isLt
  rw [BitVec.toNat_sub]
  simp only [BitVec.ofNat_eq_ofNat, BitVec.toNat_ofNat]
  omega

theorem sub_one_eq_zero_iff (v : BitVec 3) : v - 1 = 0 ↔ v.toNat = 1 := by
  revert v
  decide

theorem tickStep_of_last {s : State} (h : s.block.c.timer.toNat = 1) :
    tickStep s = raise .handshakeTimeout (putTimer (s.block.c.timer - 1) s) :=
  if_pos ((sub_one_eq_zero_iff _).mpr h)

theorem tickStep_of_not_last {s : State} (h : s.block.c.timer.toNat ≠ 1) : tickStep s = putTimer (s.block.c.timer - 1) s :=
  if_neg (mt (sub_one_eq_zero_iff _).mp h)

theorem tickStep_env (s : State) : (tickStep s).env = s.env := by
  by_cases h : s.block.c.timer.toNat = 1
  · rw [tickStep_of_last h, raise_env, putTimer_env]
  · rw [tickStep_of_not_last h, putTimer_env]

theorem tickStep_block (s : State) : (tickStep s).block =
    { s.block with
      c := { s.block.c with timer := s.block.c.timer - 1 },
      err := if s.block.c.timer.toNat = 1 then .handshakeTimeout else s.block.err,
      busy := if s.block.c.timer.toNat = 1 then false else s.block.busy } := by
  by_cases h : s.block.c.timer.toNat = 1
  · simp only [tickStep_of_last h, if_pos h]
    rfl
  · simp only [tickStep_of_not_last h, if_neg h]
    rfl

theorem tickStep_timer (s : State) : (tickStep s).block.c.timer = s.block.c.timer - 1 := by rw [tickStep_block]

theorem step_tick_of_busy {s : State} {rest : List Event} (he : s.env.events = .tick :: rest) (hb : s.block.busy = true) :
    step s = .next (tickStep (setEvents rest s)) :=
  step_of_done he (by simp only [takeEvent, setEvents_block, hb, if_true])

theorem step_tick_of_idle {s : State} {rest : List Event} (he : s.env.events = .tick :: rest) (hb : s.block.busy = false) :
    step s = .next (setEvents rest s) :=
  step_of_done he (by simp [takeEvent, hb])

/-! ### The receive step (R175, R177) -/

/-- The wait goes on: BUSY, CONN, ERR and the connection file are as before. -/
def waitGoesOn (s t : State) : Prop :=
  t.block.busy = s.block.busy ∧ t.block.conn = s.block.conn ∧ t.block.err = s.block.err ∧ t.block.c = s.block.c

/-- An acceptance ends the wait: in ESTABLISHED, or with TransportError where the ACK was not sent. -/
theorem accept_ends_wait (p : ParsedPacket) (s : State) :
    (accept p s).block.busy = false
    ∧ (((accept p s).block.conn = s.block.conn ∧ (accept p s).block.err = .transportError)
      ∨ ((accept p s).block.conn = .established ∧ (accept p s).block.err = .noError)) := by
  obtain ⟨-, hacc⟩ | ⟨-, hacc⟩ := accept_cases p s <;> rw [hacc]
  · exact ⟨rfl, .inl ⟨rfl, rfl⟩⟩
  · exact ⟨rfl, .inr ⟨rfl, rfl⟩⟩

/-- Everything a receive step can do to the wait: it goes on, or ends with TransportError, or ends in ESTABLISHED. -/
theorem receiveStep_wait_cases (s : State) :
    waitGoesOn s (receiveStep s)
    ∨ ((receiveStep s).block.busy = false
      ∧ (((receiveStep s).block.conn = s.block.conn ∧ (receiveStep s).block.err = .transportError)
        ∨ ((receiveStep s).block.conn = .established ∧ (receiveStep s).block.err = .noError))) := by
  obtain ⟨-, hrx⟩ | ⟨-, hrx⟩ | ⟨b, -, hrx⟩ | ⟨b, p, -, -, -, -, hrx⟩ := receiveStep_cases s <;> rw [hrx]
  · exact .inl ⟨rfl, rfl, rfl, rfl⟩
  · exact .inr ⟨rfl, .inl ⟨rfl, rfl⟩⟩
  · exact .inl ⟨rfl, rfl, rfl, rfl⟩
  · exact .inr (accept_ends_wait p (putParsed (some p) (putIbuf b (afterRecv s))))

/-- Settles O31: a tick outside the wait only leaves the schedule, and one during it is `tickStep`. -/
theorem tickLowersTheTimer : Obligations.TickLowersTheTimer := by
  refine fun s rest he => ⟨fun hb => step_tick_of_idle he hb, fun hb hpos => ?_⟩
  have htimer : (tickStep (setEvents rest s)).block.c.timer = s.block.c.timer - 1 := tickStep_timer (setEvents rest s)
  refine ⟨_, step_tick_of_busy he hb, tickStep_env (setEvents rest s), ?_, ?_⟩
  · rw [htimer, toNat_sub_one hpos]
  · rw [htimer, tickStep_block, setEvents_block, hb]

end Sys2Proof.Machine
end

section
/-! What a command can do, in five forms: an error that leaves the state alone; the write of a command that uses neither a port nor the
connection; CONNECT's first step; a data segment; the reset. Every statement about all commands splits on these. -/

namespace Sys2Proof.Machine

open Sys2Proof.Claims

/-- What the ten commands that use neither a port nor the connection file write before `finish` (spec/30_encoding.md R98). -/
inductive LocalWrite (s : State) : Instr → State → Prop where
  | csum (v : Half) : LocalWrite s .csum (putCsum v s)
  | output {i : Instr} (b : List Byte) (hi : i ∈ [Instr.pseudo, .encTcp, .encIp, .buildIp]) (hb : b.length ≤ 65535) :
      LocalWrite s i (putObuf b s)
  | tcp (f : TcpHeader) : LocalWrite s .decTcp (putTcp f s)
  | ip (g : IpHeader) : LocalWrite s .decIp (putIp g s)
  | summedOutput {i : Instr} (b : List Byte) (v : Half) (hi : i ∈ [Instr.buildTcp, .buildPkt]) (hb : b.length ≤ 65535) :
      LocalWrite s i (putCsum v (putObuf b s))
  | parsed : LocalWrite s .parse (putParsed (parse s.input) s)

/-- The codes of the errors that a command finds before it does anything (spec/60_exceptions.md R209). -/
def earlyErrors : List Err := [.malformedHeader, .notConnected, .illegalCommand, .badLength]

/-- Everything a command can do. -/
theorem exec_effects {i : Instr} {s t : State} (h : exec i s = .next t) :
    (∃ e ∈ earlyErrors, e ∈ endings i ∧ t = raise e s)
    ∨ (∃ u, LocalWrite s i u ∧ t = finish u)
    ∨ (i = .connect ∧ s.block.conn = .closed ∧ t = openConnection s)
    ∨ (i = .send ∧ s.block.conn = .established ∧ s.block.plen.toNat ≤ 65495 ∧ t = sendData s)
    ∨ (i = .init ∧ t = resetBlock s) := by
  have hdec : ∀ j ∈ [Instr.decTcp, .decIp], Err.malformedHeader ∈ endings j := by decide
  have hbuild : ∀ j ∈ [Instr.buildTcp, .buildIp, .buildPkt], Err.badLength ∈ endings j := by decide
  obtain ⟨rfl, ht⟩ | ⟨b, hb, hi, ht⟩ | ⟨hi, ht⟩ | ⟨f, rfl, ht⟩ | ⟨g, rfl, ht⟩ | ⟨hi, ht⟩ | ⟨b, v, hb, hi, ht⟩ | ⟨rfl, ht⟩
    | ⟨rfl, -, ht⟩ | ⟨rfl, hc, -⟩ | ⟨rfl, hc, -⟩ | ⟨rfl, -, ht⟩ | ⟨rfl, -, ht⟩ | ⟨rfl, hc, hl, -⟩ | ⟨rfl, hc, hl, -⟩ | ⟨hi, ht⟩ :=
    exec_cases h
  · exact .inr (.inl ⟨_, .csum _, ht⟩)
  · exact .inr (.inl ⟨_, .output b hi hb, ht⟩)
  · exact .inl ⟨_, by decide, hdec i hi, ht⟩
  · exact .inr (.inl ⟨_, .tcp f, ht⟩)
  · exact .inr (.inl ⟨_, .ip g, ht⟩)
  · exact .inl ⟨_, by decide, hbuild i hi, ht⟩
  · exact .inr (.inl ⟨_, .summedOutput b v hi hb, ht⟩)
  · exact .inr (.inl ⟨_, .parsed, ht⟩)
  · exact .inl ⟨_, by decide, by decide, ht⟩
  -- a CONNECT in CLOSED, with either answer to its send
  iterate 2 exact .inr (.inr (.inl ⟨rfl, hc, Host.Outcome.next.inj (h.symm.trans (exec_connect_of_closed hc))⟩))
  iterate 2 exact .inl ⟨_, by decide, by decide, ht⟩
  -- a SEND of data, with either answer
  iterate 2
    have hfits : s.block.plen.toNat ≤ 65495 := by omega
    exact .inr (.inr (.inr (.inl ⟨rfl, hc, hfits, Host.Outcome.next.inj (h.symm.trans (exec_send_of_le hc hfits))⟩)))
  · exact .inr (.inr (.inr (.inr ⟨hi, ht⟩)))

/-- None of the local writes uses a port, or writes STATUS, ERR, the connection file, IBUF or PBUF. -/
theorem LocalWrite.keeps {s u : State} {i : Instr} (h : LocalWrite s i u) :
    u.env = s.env ∧ u.block.busy = s.block.busy ∧ u.block.conn = s.block.conn ∧ u.block.c = s.block.c
    ∧ u.block.ibuf = s.block.ibuf ∧ u.block.pbuf = s.block.pbuf := by
  cases h <;> exact ⟨rfl, rfl, rfl, rfl, rfl, rfl⟩

end Sys2Proof.Machine
end

section
/-! The invariant of the block (spec/10_state.md sections 3, 6, 7 and 8): it holds at reset and every step keeps it; and with it the
transition table of the ConnectionState (spec/44_handshake.md R170). What the invariant says of the registers and buffers is kept by
every update of the state on its own; what it says of the wait holds only between steps, and is proved for a step as a whole. -/

namespace Sys2Proof.Machine

open Sys2Proof.Claims

/-! ### The two parts of the invariant -/

/-- What the invariant says of the registers and buffers, whether the block waits or not. -/
def State.Sound (s : State) : Prop :=
  s.block.buffersWf ∧ s.block.timerBounded ∧ s.block.parsedConsistent ∧ s.block.lengthsConsistent ∧ s.block.payloadInBuffer

theorem inv_iff (s : State) : s.Inv ↔ s.Sound ∧ s.block.waitConsistent := by
  simp only [State.Inv, State.Sound]
  tauto

theorem waitConsistent_of_idle {b : Block} (h : b.busy = false) : b.waitConsistent := by simp [Block.waitConsistent, h]

/-! ### Every update keeps the registers and buffers sound -/

theorem sound_reset : State.reset.Sound :=
  ⟨Block.reset_wf, by decide, fun _ => rfl, by decide, by decide⟩

theorem ofNat_headerBytes_mod_four (w : BitVec 4) : (BitVec.ofNat 6 (headerBytes w)).toNat % 4 = 0 := by
  rw [ofNat_headerBytes_toNat, Nat.mul_mod_left]

section
variable {s : State} (h : s.Sound)
include h

theorem sound_finish : (finish s).Sound := h

theorem sound_raise (e : Err) : (raise e s).Sound := h

theorem sound_setEvents (rest : List Event) : (setEvents rest s).Sound := h

theorem sound_putCsum (v : Half) : (putCsum v s).Sound := h

theorem sound_putConn (v : Conn) : (putConn v s).Sound := h

theorem sound_putNumbers (seq ack : Word) : (putNumbers seq ack s).Sound := h

theorem sound_enterWait : (enterWait s).Sound := h

theorem sound_leaveWait : (leaveWait s).Sound := h

theorem sound_drawn : (drawn s).Sound := h

theorem sound_afterRecv : (afterRecv s).Sound := h

theorem sound_putTimer {v : BitVec 3} (hv : v.toNat ≤ 5) : (putTimer v s).Sound := by
  obtain ⟨hbufs, -, hrest⟩ := h
  exact ⟨hbufs, hv, hrest⟩

theorem sound_putTcp (f : TcpHeader) : (putTcp f s).Sound := by
  obtain ⟨hbufs, htimer, hparsed, ⟨hiphl, -, hplens⟩, hpay⟩ := h
  exact ⟨hbufs, htimer, hparsed, ⟨hiphl, ofNat_headerBytes_mod_four f.doff, hplens⟩, hpay⟩

theorem sound_putIp (g : IpHeader) : (putIp g s).Sound := by
  obtain ⟨hbufs, htimer, hparsed, ⟨-, hrest⟩, hpay⟩ := h
  exact ⟨hbufs, htimer, hparsed, ⟨ofNat_headerBytes_mod_four g.ihl, hrest⟩, hpay⟩

theorem sound_putObuf {b : List Byte} (hb : b.length ≤ 65535) : (putObuf b s).Sound := by
  obtain ⟨⟨hibuf, hobuf, hpbuf⟩, hrest⟩ := h
  exact ⟨⟨hibuf, Memory.wf_writeFront _ b hobuf hb, hpbuf⟩, hrest⟩

theorem sound_putIbuf {b : List Byte} (hb : b.length ≤ 65535) : (putIbuf b s).Sound := by
  obtain ⟨⟨hibuf, hother⟩, hrest⟩ := h
  exact ⟨⟨Memory.wf_writeFront _ b hibuf hb, hother⟩, hrest⟩

theorem sound_transmit {pkt : List Byte} (hpkt : pkt.length ≤ 65535) : (transmit pkt s).Sound := sound_putObuf h hpkt

/-- A parse of bytes that fit a buffer fills the P file with a packet inside it, or with zeros. -/
theorem sound_putParsed {raw : List Byte} (hraw : raw.length ≤ 65535) : (putParsed (parse raw) s).Sound := by
  obtain ⟨hbufs, htimer, -, ⟨hriphl, hrtcphl, -⟩, -⟩ := h
  cases hp : parse raw with
  | none => exact ⟨hbufs, htimer, fun _ => rfl, ⟨hriphl, hrtcphl, rfl, rfl⟩, Nat.zero_le _⟩
  | some r =>
    obtain ⟨f, -, rfl⟩ := eq_packetOf_of_parse hp
    have hpay : (putParsed (some (packetOf raw (ipHeaderLength raw) f)) s).block.payloadInBuffer := by
      rw [Block.payloadInBuffer, putParsed_p, parsedFile_payoff_toNat (by omega), parsedFile_paylen_toNat (by omega),
        packetOf_payoff_add_paylen]
      exact hraw
    exact ⟨hbufs, htimer, fun hv => absurd hv (by simp [parsedFile]),
      ⟨hriphl, hrtcphl, ofNat_headerBytes_mod_four _, ofNat_headerBytes_mod_four _⟩, hpay⟩

/-- The host can write none of the registers that `Sound` speaks of. -/
theorem sound_writeNumber (n : Nat) (v : Word) : State.Sound { s with block := writeNumber n v s.block } := by
  unfold writeNumber
  cases regOfNumber n with
  | none => exact h
  | some r => cases r <;> exact h

theorem sound_writeBuf (b : Buf) {k : Nat} (hk : k < bufMax) (v : Byte) :
    State.Sound { s with block := writeBuf b k v s.block } := by
  obtain ⟨⟨hibuf, hobuf, hpbuf⟩, hrest⟩ := h
  cases b with
  | ibuf => exact ⟨⟨Memory.wf_write _ v hibuf hk, hobuf, hpbuf⟩, hrest⟩
  | obuf => exact ⟨⟨hibuf, hobuf, hpbuf⟩, hrest⟩
  | pbuf => exact ⟨⟨hibuf, hobuf, Memory.wf_write _ v hpbuf hk⟩, hrest⟩

/-! ### Every command and every step of the wait keeps them sound -/

theorem sound_localWrite {i : Instr} {u : State} (hw : LocalWrite s i u) : u.Sound := by
  cases hw with
  | csum v => exact sound_putCsum h v
  | output b _ hb => exact sound_putObuf h hb
  | tcp f => exact sound_putTcp h f
  | ip g => exact sound_putIp h g
  | summedOutput b v _ hb => exact sound_putCsum (sound_putObuf h hb) v
  | parsed => exact sound_putParsed h ((input_length s).trans_le (Nat.le_of_lt_succ s.block.ilen.isLt))

theorem sound_openConnection : (openConnection s).Sound := by
  have hsyn : (transmit (synOf s) (drawn s)).Sound := sound_transmit (sound_drawn h) ((synOf_length s).trans_le (by decide))
  cases ha : synAnswer s with
  | ok =>
    rw [openConnection_of_ok ha]
    exact sound_enterWait (sound_putTimer (sound_putConn hsyn _) (by decide))
  | error =>
    rw [openConnection_of_error ha]
    exact sound_raise hsyn _

theorem sound_sendData (hl : s.block.plen.toNat ≤ 65495) : (sendData s).Sound := by
  have hsent : (transmit (dataPacket s) s).Sound := sound_transmit h ((dataPacket_length s).trans_le (by omega))
  cases ha : sendAnswer s with
  | ok =>
    rw [sendData_of_ok ha]
    exact sound_finish (sound_putNumbers hsent _ _)
  | error =>
    rw [sendData_of_error ha]
    exact sound_raise hsent _

theorem sound_exec {i : Instr} {t : State} (hexec : exec i s = .next t) : t.Sound := by
  obtain ⟨e, -, -, rfl⟩ | ⟨u, hw, rfl⟩ | ⟨-, -, rfl⟩ | ⟨-, -, hl, rfl⟩ | ⟨-, rfl⟩ := exec_effects hexec
  · exact sound_raise h e
  · exact sound_finish (sound_localWrite h hw)
  · exact sound_openConnection h
  · exact sound_sendData h hl
  · exact sound_reset

theorem sound_accept (p : ParsedPacket) : (accept p s).Sound := by
  have hack : (transmit (ackOf s.block.c p) (acceptNumbers p s)).Sound :=
    sound_transmit (sound_putNumbers h _ _) ((ackOf_length s.block.c p).trans_le (by decide))
  cases ha : sendAnswer s with
  | ok =>
    rw [accept_of_ok ha]
    exact sound_finish (sound_leaveWait (sound_putConn hack _))
  | error =>
    rw [accept_of_error ha]
    exact sound_raise hack _

theorem sound_receiveStep : (receiveStep s).Sound := by
  have hpoll := sound_afterRecv h
  have hkept {b : List Byte} (ha : recvAnswer s = .bytes b) : (putParsed (parse b) (putIbuf b (afterRecv s))).Sound :=
    sound_putParsed (sound_putIbuf hpoll (recvAnswer_bytes_length ha)) (recvAnswer_bytes_length ha)
  obtain ⟨-, hrx⟩ | ⟨-, hrx⟩ | ⟨b, ha, hrx⟩ | ⟨b, p, ha, hp, -, -, hrx⟩ := receiveStep_cases s <;> rw [hrx]
  · exact hpoll
  · exact hpoll
  · exact hkept ha
  · exact sound_accept (hp ▸ hkept ha) p

theorem sound_tickStep (hpos : 1 ≤ s.block.c.timer.toNat) : (tickStep s).Sound := by
  obtain ⟨-, htimer, -⟩ := id h
  have hlower : (putTimer (s.block.c.timer - 1) s).Sound := sound_putTimer h (by rw [toNat_sub_one hpos]; omega)
  by_cases hlast : s.block.c.timer.toNat = 1
  · rw [tickStep_of_last hlast]
    exact sound_raise hlower _
  · rw [tickStep_of_not_last hlast]
    exact hlower

end

/-! ### What a host write, a command and a step of the wait do to the wait -/

theorem writeNumber_keeps_control (n : Nat) (v : Word) (b : Block) :
    (writeNumber n v b).busy = b.busy ∧ (writeNumber n v b).conn = b.conn ∧ (writeNumber n v b).c.timer = b.c.timer := by
  unfold writeNumber
  cases regOfNumber n with
  | none => exact ⟨rfl, rfl, rfl⟩
  | some r => cases r <;> exact ⟨rfl, rfl, rfl⟩

theorem writeBuf_keeps_control (b : Buf) (k : Nat) (v : Byte) (blk : Block) :
    (writeBuf b k v blk).busy = blk.busy ∧ (writeBuf b k v blk).conn = blk.conn ∧ (writeBuf b k v blk).c.timer = blk.c.timer := by
  cases b <;> exact ⟨rfl, rfl, rfl⟩

theorem sendData_keeps_conn (s : State) :
    (sendData s).block.conn = s.block.conn ∧ (s.block.busy = false → (sendData s).block.busy = false) := by
  cases ha : sendAnswer s with
  | ok => rw [sendData_block_of_ok ha]; exact ⟨rfl, id⟩
  | error => rw [sendData_block_of_error ha]; exact ⟨rfl, fun _ => rfl⟩

/-- CONNECT's first step ends in CLOSED, or goes on to wait in SYN_SENT with all five time-units. -/
theorem openConnection_wait_cases (s : State) :
    ((openConnection s).block.busy = false ∧ (openConnection s).block.conn = s.block.conn
      ∧ (openConnection s).block.err = .transportError)
    ∨ ((openConnection s).block.busy = true ∧ (openConnection s).block.conn = .synSent
      ∧ (openConnection s).block.err = s.block.err ∧ (openConnection s).block.c.timer = 5) := by
  cases ha : synAnswer s with
  | ok => rw [openConnection_block_of_ok ha]; exact .inr ⟨rfl, rfl, rfl, rfl⟩
  | error => rw [openConnection_block_of_error ha]; exact .inl ⟨rfl, rfl, rfl⟩

/-- A command run in IDLE leaves the block in IDLE, or waiting as the invariant has it. -/
theorem exec_waitConsistent {i : Instr} {s t : State} (hexec : exec i s = .next t) (hb : s.block.busy = false) :
    t.block.waitConsistent := by
  obtain ⟨e, -, -, rfl⟩ | ⟨u, hw, rfl⟩ | ⟨-, -, rfl⟩ | ⟨-, -, -, rfl⟩ | ⟨-, rfl⟩ := exec_effects hexec
  · exact waitConsistent_of_idle rfl
  · obtain ⟨-, hbusy, -⟩ := hw.keeps
    exact waitConsistent_of_idle (hbusy.trans hb)
  · obtain ⟨hidle, -⟩ | ⟨-, hconn, -, htimer⟩ := openConnection_wait_cases s
    · exact waitConsistent_of_idle hidle
    · exact fun _ => ⟨hconn, by rw [htimer]; decide⟩
  · exact waitConsistent_of_idle ((sendData_keeps_conn s).2 hb)
  · exact waitConsistent_of_idle rfl

theorem receiveStep_waitConsistent {s : State} (h : s.block.waitConsistent) : (receiveStep s).block.waitConsistent := by
  obtain ⟨hbusy, hconn, -, hc⟩ | ⟨hidle, -⟩ := receiveStep_wait_cases s
  · rwa [Block.waitConsistent, hbusy, hconn, hc]
  · exact waitConsistent_of_idle hidle

theorem tickStep_waitConsistent {s : State} (hb : s.block.busy = true) (h : s.block.waitConsistent) :
    (tickStep s).block.waitConsistent := by
  obtain ⟨hconn, hpos⟩ := h hb
  by_cases hlast : s.block.c.timer.toNat = 1
  · rw [tickStep_of_last hlast]
    exact waitConsistent_of_idle rfl
  · have hleft := toNat_sub_one hpos
    rw [tickStep_of_not_last hlast]
    exact fun _ => ⟨hconn, show 1 ≤ (s.block.c.timer - 1).toNat by omega⟩

/-! ### Everything a step can do -/

/-- What a step shows its environment. -/
def shown (s t : State) : List Obs := t.env.trace.drop s.env.trace.length

theorem shown_of_append {s t : State} {obs : List Obs} (h : t.env.trace = s.env.trace ++ obs) : shown s t = obs := by
  rw [shown, h, List.drop_left]

theorem shown_of_trace_eq {s t : State} (h : t.env.trace = s.env.trace) : shown s t = [] :=
  shown_of_append (h.trans (List.append_nil _).symm)

theorem noSend_of_trace_eq {s t : State} (h : t.env.trace = s.env.trace) (pkt : List Byte) (dst : Word) (r : SendAnswer) :
    .sent pkt dst r ∉ shown s t := by
  rw [shown_of_trace_eq h]
  exact List.not_mem_nil

/-- A step that leaves the connection alone: it sends nothing and keeps BUSY, CONN, C_TIMER and the soundness of the rest. -/
structure QuietStep (s t : State) : Prop where
  busy : t.block.busy = s.block.busy
  conn : t.block.conn = s.block.conn
  timer : t.block.c.timer = s.block.c.timer
  sound : s.Sound → t.Sound
  events : t.env.events = s.env.events.tail
  noSend : ∀ pkt dst r, Obs.sent pkt dst r ∉ shown s t

section
variable {s : State} {e : Event} {rest : List Event} (he : s.env.events = e :: rest)
include he

/-- An event that does nothing, or only writes registers and buffers. -/
theorem quietStep_of_write {b : Block} (hbusy : b.busy = s.block.busy) (hconn : b.conn = s.block.conn)
    (htimer : b.c.timer = s.block.c.timer) (hsound : s.Sound → State.Sound { s with block := b }) :
    QuietStep s { setEvents rest s with block := b } :=
  ⟨hbusy, hconn, htimer, hsound, by rw [he]; rfl, noSend_of_trace_eq rfl⟩

theorem quietStep_of_drop : QuietStep s (setEvents rest s) := quietStep_of_write he (b := s.block) rfl rfl rfl id

theorem quietStep_of_read {o : Obs} (ho : ∀ pkt dst r, .sent pkt dst r ≠ o) : QuietStep s (observe o (setEvents rest s)) :=
  ⟨rfl, rfl, rfl, id, by rw [he]; rfl, by
    rw [shown_of_append (obs := [o]) rfl]
    simpa using ho⟩

theorem quietStep_hostWrite (n : Nat) (v : Word) : QuietStep s (hostWrite n v (setEvents rest s)) := by
  cases hb : s.block.busy with
  | true =>
    rw [hostWrite_of_busy (s := setEvents rest s) hb]
    exact quietStep_of_drop he
  | false =>
    rw [hostWrite_of_idle (s := setEvents rest s) hb]
    obtain ⟨hbusy, hconn, htimer⟩ := writeNumber_keeps_control n v s.block
    exact quietStep_of_write he hbusy hconn htimer fun h => sound_writeNumber h n v

theorem quietStep_hostBufWrite (b : Buf) {k : Nat} (hk : k < bufMax) (v : Byte) :
    QuietStep s (hostBufWrite b k v (setEvents rest s)) := by
  cases hb : s.block.busy with
  | true =>
    rw [hostBufWrite_of_busy (s := setEvents rest s) hb]
    exact quietStep_of_drop he
  | false =>
    rw [hostBufWrite_of_idle (s := setEvents rest s) hb]
    obtain ⟨hbusy, hconn, htimer⟩ := writeBuf_keeps_control b k v s.block
    exact quietStep_of_write he hbusy hconn htimer fun h => sound_writeBuf h b hk v

/-- An undecodable word finds BUSY at 0 already. -/
theorem quietStep_raise (hb : s.block.busy = false) (err : Err) : QuietStep s (raise err (setEvents rest s)) :=
  quietStep_of_write he (b := { s.block with err := err, busy := false }) hb.symm rfl rfl fun h => sound_raise h err

end

/-- Everything a step can do: leave the connection alone, run a command in IDLE, take a step of the wait, or reset the block. -/
theorem step_effects {s t : State} (h : step s = .next t) :
    (QuietStep s t ∧ (s.block.busy = true → s.env.events.head? ≠ some .tick))
    ∨ ∃ e rest, s.env.events = e :: rest ∧
      ((∃ i, e = .hostWrite 0 (encode i) ∧ s.block.busy = false ∧ exec i (setEvents rest s) = .next t)
      ∨ (e = .rx ∧ s.block.busy = true ∧ t = receiveStep (setEvents rest s))
      ∨ (e = .tick ∧ s.block.busy = true ∧ t = tickStep (setEvents rest s))
      ∨ (e = .reset ∧ t = resetBlock (setEvents rest s))) := by
  obtain ⟨he, rfl⟩ | ⟨e, rest, he, hcases⟩ := step_cases h
  · exact .inl ⟨⟨rfl, rfl, rfl, id, by rw [he]; rfl, noSend_of_trace_eq rfl⟩, by simp [he]⟩
  obtain ⟨n, rfl, rfl⟩ | ⟨b, k, rfl, -, rfl⟩ | ⟨n, v, rfl, -, rfl⟩ | ⟨b, k, v, rfl, hk, rfl⟩ | ⟨w, rfl, -, rfl⟩
    | ⟨w, er, rfl, hb, -, rfl⟩ | ⟨w, i, rfl, hb, hd, hexec⟩ | ⟨hrx, hb, ht⟩ | ⟨rfl, hb, rfl⟩ | ⟨htick, hb, ht⟩ | ⟨rfl, hb, rfl⟩
    | ⟨hreset, ht⟩ := hcases
  · exact .inl ⟨quietStep_of_read he (by simp), by simp [he]⟩
  · exact .inl ⟨quietStep_of_read he (by simp), by simp [he]⟩
  · exact .inl ⟨quietStep_hostWrite he n v, by simp [he]⟩
  · exact .inl ⟨quietStep_hostBufWrite he b hk v, by simp [he]⟩
  · exact .inl ⟨quietStep_of_drop he, by simp [he]⟩
  · exact .inl ⟨quietStep_raise he hb _, by simp [he]⟩
  · exact .inr ⟨_, rest, he, .inl ⟨i, by rw [eq_encode_of_decode hd], hb, hexec⟩⟩
  · exact .inr ⟨e, rest, he, .inr (.inl ⟨hrx, hb, ht⟩)⟩
  · exact .inl ⟨quietStep_of_drop he, by simp [he]⟩
  · exact .inr ⟨e, rest, he, .inr (.inr (.inl ⟨htick, hb, ht⟩))⟩
  · exact .inl ⟨quietStep_of_drop he, by simp [hb]⟩
  · exact .inr ⟨e, rest, he, .inr (.inr (.inr ⟨hreset, ht⟩))⟩

/-! ### The statements -/

/-- Settles O46. -/
theorem invariantAtReset : Obligations.InvariantAtReset :=
  (inv_iff State.reset).mpr ⟨sound_reset, waitConsistent_of_idle rfl⟩

/-- Settles O47: both parts of the invariant, for each thing that a step can do. -/
theorem everyStepKeepsTheInvariant : Obligations.EveryStepKeepsTheInvariant := by
  intro s t hinv hstep
  obtain ⟨hs, hw⟩ := (inv_iff s).mp hinv
  rw [inv_iff]
  obtain ⟨hquiet, -⟩ | ⟨e, rest, -, hcases⟩ := step_effects hstep
  · refine ⟨hquiet.sound hs, ?_⟩
    rwa [Block.waitConsistent, hquiet.busy, hquiet.conn, hquiet.timer]
  have hpop : (setEvents rest s).Sound := sound_setEvents hs rest
  obtain ⟨i, -, hb, hexec⟩ | ⟨-, -, rfl⟩ | ⟨-, hb, rfl⟩ | ⟨-, rfl⟩ := hcases
  · exact ⟨sound_exec hpop hexec, exec_waitConsistent hexec hb⟩
  · exact ⟨sound_receiveStep hpop, receiveStep_waitConsistent hw⟩
  · obtain ⟨-, hpos⟩ := hw hb
    exact ⟨sound_tickStep hpop hpos, tickStep_waitConsistent hb hw⟩
  · exact ⟨sound_reset, waitConsistent_of_idle rfl⟩

/-- Only CONNECT and INIT change the ConnectionState. -/
theorem exec_conn_cases {i : Instr} {s t : State} (hexec : exec i s = .next t) :
    t.block.conn = s.block.conn
    ∨ (i = .connect ∧ s.block.conn = .closed ∧ t.block.conn = .synSent ∧ t.block.busy = true)
    ∨ (i = .init ∧ t.block.conn = .closed) := by
  obtain ⟨e, -, -, rfl⟩ | ⟨u, hw, rfl⟩ | ⟨hi, hc, rfl⟩ | ⟨-, -, -, rfl⟩ | ⟨hi, rfl⟩ := exec_effects hexec
  · exact .inl rfl
  · obtain ⟨-, -, hconn, -⟩ := hw.keeps
    exact .inl hconn
  · obtain ⟨-, hconn, -⟩ | ⟨hbusy, hconn, -⟩ := openConnection_wait_cases s
    · exact .inl hconn
    · exact .inr (.inl ⟨hi, hc, hconn, hbusy⟩)
  · exact .inl (sendData_keeps_conn s).1
  · exact .inr (.inr ⟨hi, rfl⟩)

theorem tickStep_conn (s : State) : (tickStep s).block.conn = s.block.conn := by rw [tickStep_block]

/-- Settles O48: a quiet step and a tick keep CONN; a command, a receive step and the reset change it as the table says. -/
theorem connectionStateTransitions : Obligations.ConnectionStateTransitions := by
  intro s t hinv hstep hne
  obtain ⟨-, hw⟩ := (inv_iff s).mp hinv
  obtain ⟨hquiet, -⟩ | ⟨e, rest, he, hcases⟩ := step_effects hstep
  · exact absurd hquiet.conn hne
  have hhead : s.env.events.head? = some e := by rw [he]; rfl
  obtain ⟨i, rfl, hb, hexec⟩ | ⟨rfl, hb, rfl⟩ | ⟨rfl, hb, rfl⟩ | ⟨rfl, rfl⟩ := hcases
  · obtain hsame | ⟨rfl, hclosed, hconn, hbusy⟩ | ⟨rfl, hconn⟩ := exec_conn_cases hexec
    · exact absurd hsame hne
    · exact .inl ⟨hclosed, hconn, hb, hbusy, hhead⟩
    · exact .inr (.inr ⟨hconn, .inr ⟨hb, hhead⟩⟩)
  · obtain ⟨-, hsame, -⟩ | ⟨hidle, ⟨hsame, -⟩ | ⟨hconn, -⟩⟩ := receiveStep_wait_cases (setEvents rest s)
    · exact absurd hsame hne
    · exact absurd hsame hne
    · obtain ⟨hsyn, -⟩ := hw hb
      exact .inr (.inl ⟨hsyn, hconn, hb, hidle, hhead⟩)
  · exact absurd (tickStep_conn (setEvents rest s)) hne
  · exact .inr (.inr ⟨rfl, .inl hhead⟩)

end Sys2Proof.Machine
end

section
/-! The step: what it answers for every event, and that it takes one event off the schedule. With these laws the claims about single
steps, about stops and about runs are settled (spec/44_handshake.md R186, spec/20_memory.md R55 and R56, spec/30_encoding.md R95). -/

namespace Sys2Proof.Machine

open Sys2Proof.Claims

/-! ### Every command answers (spec/44_handshake.md section 6) -/

theorem exec_answers (i : Instr) (s : State) : ∃ t, exec i s = .next t := by
  cases i with
  | decTcp =>
    cases hd : decodeTcp s.input with
    | none => exact ⟨_, execDecTcp_of_none hd⟩
    | some f => exact ⟨_, execDecTcp_of_some hd⟩
  | decIp =>
    cases hd : decodeIp s.input with
    | none => exact ⟨_, execDecIp_of_none hd⟩
    | some g => exact ⟨_, execDecIp_of_some hd⟩
  | buildTcp =>
    obtain hle | hgt := le_or_gt s.block.plen.toNat 65515
    · exact ⟨_, execBuildTcp_of_le hle⟩
    · exact ⟨_, execBuildTcp_of_gt hgt⟩
  | buildIp =>
    obtain hle | hgt := le_or_gt s.block.a.segLen.toNat 65515
    · exact ⟨_, execBuildIp_of_le hle⟩
    · exact ⟨_, execBuildIp_of_gt hgt⟩
  | buildPkt =>
    obtain hle | hgt := le_or_gt s.block.plen.toNat 65495
    · exact ⟨_, execBuildPkt_of_le hle⟩
    · exact ⟨_, execBuildPkt_of_gt hgt⟩
  | csum | pseudo | encTcp | encIp | parse | connect | send | init => exact ⟨_, rfl⟩

/-! ### What a step answers for the other events -/

theorem step_of_empty {s : State} (he : s.env.events = []) : step s = .next s := by
  simp only [step, nextWork, he]

section
variable {s : State} {rest : List Event}

theorem step_command_of_ok {w : Word} {i : Instr} (he : s.env.events = .hostWrite 0 w :: rest) (hb : s.block.busy = false)
    (hd : decode w = .ok i) : step s = exec i (setEvents rest s) := by
  simp [step, nextWork, he, takeEvent, issue, hb, hd]

theorem step_command_answers {w : Word} (he : s.env.events = .hostWrite 0 w :: rest) : ∃ t, step s = .next t := by
  cases hb : s.block.busy with
  | true => exact ⟨_, step_command_of_busy he hb⟩
  | false =>
    cases hd : decode w with
    | ok i => exact step_command_of_ok he hb hd ▸ exec_answers i _
    | error e => exact ⟨_, step_command_of_error he hb hd⟩

theorem step_rx_answers (he : s.env.events = .rx :: rest) : ∃ t, step s = .next t := ⟨_, step_of_done he rfl⟩

theorem step_tick_answers (he : s.env.events = .tick :: rest) : ∃ t, step s = .next t := ⟨_, step_of_done he rfl⟩

/-- A step whose event names a buffer byte answers exactly if there is such a byte. -/
theorem step_of_buffer_access {e : Event} {k : Nat} {t : State} {f : Fault} (he : s.env.events = e :: rest)
    (hd : takeEvent e (setEvents rest s) = .done (if k < bufMax then .next t else .fault f)) :
    (∃ t, step s = .next t) ↔ k < bufMax := by
  rw [step_of_done he hd]
  by_cases hk : k < bufMax <;> simp [hk]

theorem step_answers_iff {e : Event} (he : s.env.events = e :: rest) : (∃ t, step s = .next t) ↔ e.admitted = true := by
  cases e with
  | hostRead n => exact iff_of_true ⟨_, step_hostRead he⟩ rfl
  | hostBufRead b k => exact (step_of_buffer_access he rfl).trans decide_eq_true_iff.symm
  | hostWrite n v =>
    refine iff_of_true ?_ rfl
    by_cases hn : n = 0
    · subst hn
      exact step_command_answers he
    · exact ⟨_, step_hostWrite he hn⟩
  | hostBufWrite b k v => exact (step_of_buffer_access he rfl).trans decide_eq_true_iff.symm
  | rx => exact iff_of_true (step_rx_answers he) rfl
  | tick => exact iff_of_true (step_tick_answers he) rfl
  | reset => exact iff_of_true ⟨_, step_reset he⟩ rfl

end

theorem step_answers_iff_head (s : State) : (∃ t, step s = .next t) ↔ ∀ e ∈ s.env.events.head?, e.admitted = true := by
  cases he : s.env.events with
  | nil => exact iff_of_true ⟨_, step_of_empty he⟩ (by simp)
  | cons e rest => simpa using step_answers_iff he

/-! ### A step takes one event off the schedule -/

/-- No command takes an event or an answer to a receive. -/
theorem exec_keeps_schedule {i : Instr} {s t : State} (h : exec i s = .next t) :
    t.env.events = s.env.events ∧ t.env.recvAnswers = s.env.recvAnswers := by
  obtain ⟨e, -, -, rfl⟩ | ⟨u, hw, rfl⟩ | ⟨-, -, rfl⟩ | ⟨-, -, -, rfl⟩ | ⟨-, rfl⟩ := exec_effects h
  · exact ⟨rfl, rfl⟩
  · obtain ⟨henv, -⟩ := hw.keeps
    rw [finish_env, henv]
    exact ⟨rfl, rfl⟩
  · rw [openConnection_env]
    exact ⟨rfl, rfl⟩
  · rw [sendData_env]
    exact ⟨rfl, rfl⟩
  · exact ⟨rfl, rfl⟩

theorem receiveStep_events (s : State) : (receiveStep s).env.events = s.env.events := by
  obtain ⟨-, hrx⟩ | ⟨-, hrx⟩ | ⟨b, -, hrx⟩ | ⟨b, p, -, -, -, -, hrx⟩ := receiveStep_cases s <;> rw [hrx]
  · rfl
  · rfl
  · rfl
  · rw [accept_env]
    rfl

theorem step_events {s t : State} (h : step s = .next t) : t.env.events = s.env.events.tail := by
  obtain ⟨hquiet, -⟩ | ⟨e, rest, he, hcases⟩ := step_effects h
  · exact hquiet.events
  rw [he, List.tail_cons]
  obtain ⟨i, -, -, hexec⟩ | ⟨-, -, rfl⟩ | ⟨-, -, rfl⟩ | ⟨-, rfl⟩ := hcases
  · exact (exec_keeps_schedule hexec).1
  · exact receiveStep_events _
  · rw [tickStep_env]
    rfl
  · rfl

/-- A run over a schedule of admitted events never stops: every step answers, and leaves a part of the schedule. -/
theorem run_answers (k : Nat) (s : State) (h : ∀ e ∈ s.env.events, e.admitted = true) :
    ∃ t : State, Host.Core.run core k s = .next t := by
  induction k generalizing s with
  | zero => exact ⟨s, rfl⟩
  | succ k ih =>
    obtain ⟨t, hstep⟩ := (step_answers_iff_head s).mpr fun e he => h e (List.mem_of_mem_head? he)
    rw [run_of_next core k hstep]
    refine ih t fun e he => h e ?_
    rw [step_events hstep] at he
    exact List.mem_of_mem_tail he

/-! ### The statements -/

/-- Settles O1: the words of R96 are those of `encode`, which decoding inverts. -/
theorem commandWordsDecode : Obligations.CommandWordsDecode :=
  ⟨decode_encode .csum, decode_encode .pseudo, decode_encode .encTcp, decode_encode .decTcp, decode_encode .encIp,
    decode_encode .decIp, decode_encode .buildTcp, decode_encode .buildIp, decode_encode .buildPkt, decode_encode .parse,
    decode_encode .connect, decode_encode .send, decode_encode .init⟩

theorem withFetchWord_encode (i : Instr) (s : State) :
    s.withFetchWord 32 (encode i).toNat = withCommand (encode i) s := by
  rw [State.withFetchWord, Nat.mod_eq_of_lt (encode i).isLt, BitVec.ofNat_toNat, BitVec.setWidth_eq]

/-- Settles O4: the probe's word is the command's own, and its state has BUSY cleared. -/
theorem stepRunsTheDecodedCommand : Obligations.StepRunsTheDecodedCommand := by
  refine ⟨fun s w i rest he hb hd => step_command_of_ok he hb hd, fun s i => ?_, fun s he => step_of_empty he⟩
  rw [withFetchWord_encode]
  exact step_command_of_ok (s := withCommand (encode i) s) rfl rfl (decode_encode i)

theorem statusWord_toNat (b : Block) : (statusWord b).toNat = (connCode b.conn).toNat * 2 + (busyBit b.busy).toNat := by
  unfold statusWord
  cases b.conn <;> cases b.busy <;> rfl

/-- Settles O37: for each of the three states with each value of BUSY, and for each of the seven errors. -/
theorem statusAndErrAreTheCodes : Obligations.StatusAndErrAreTheCodes := by
  rintro ⟨busy, conn, err⟩
  constructor
  · refine (statusWord_toNat _).trans ?_
    cases conn <;> cases busy <;> rfl
  · cases err <;> rfl

/-- Settles O39: a read is answered with `observe`, which writes the trace alone. -/
theorem hostReadsHaveNoSideEffect : Obligations.HostReadsHaveNoSideEffect :=
  fun _ _ => ⟨fun _ he => step_hostRead he, fun _ _ hk he => step_hostBufRead he hk⟩

/-- Settles O55: the three clauses are laws above. -/
theorem onlyMissingBytesStopTheMachine : Obligations.OnlyMissingBytesStopTheMachine :=
  ⟨exec_answers, step_answers_iff_head, run_answers⟩

end Sys2Proof.Machine
end

section
/-! CONNECT's wait ends: a step of it lowers C_TIMER with every tick of the schedule (spec/70_reset_and_hazards.md R252). -/

namespace Sys2Proof.Machine

open Sys2Proof.Claims

/-- A step from the wait ends it, or takes as much off C_TIMER as its event counts as a tick. -/
theorem step_timer_of_busy {s t : State} {e : Event} {rest : List Event} (he : s.env.events = e :: rest)
    (hb : s.block.busy = true) (hpos : 1 ≤ s.block.c.timer.toNat) (hstep : step s = .next t) :
    t.block.busy = false ∨ t.block.c.timer.toNat + [e].count .tick = s.block.c.timer.toNat := by
  obtain ⟨hquiet, hnotick⟩ | ⟨e', rest', he', hcases⟩ := step_effects hstep
  · have hne : e ≠ .tick := by simpa [he] using hnotick hb
    rw [hquiet.timer, List.count_eq_zero_of_not_mem (by simpa using hne.symm)]
    exact .inr rfl
  obtain ⟨rfl, rfl⟩ := List.cons.inj (he.symm.trans he')
  obtain ⟨i, -, hidle, -⟩ | ⟨rfl, -, rfl⟩ | ⟨rfl, -, rfl⟩ | ⟨-, rfl⟩ := hcases
  · simp [hb] at hidle
  · obtain ⟨-, -, -, hc⟩ | ⟨hends, -⟩ := receiveStep_wait_cases (setEvents rest s)
    · rw [hc]
      exact .inr rfl
    · exact .inl hends
  · have hleft : (tickStep (setEvents rest s)).block.c.timer.toNat = s.block.c.timer.toNat - 1 := by
      rw [tickStep_timer, setEvents_block, toNat_sub_one hpos]
    rw [hleft, List.count_singleton_self]
    exact .inr (by omega)
  · exact .inl rfl

theorem timer_pos_of_busy {s : State} (hinv : s.Inv) (hb : s.block.busy = true) : 1 ≤ s.block.c.timer.toNat := by
  obtain ⟨-, hwait⟩ := (inv_iff s).mp hinv
  exact (hwait hb).2

/-- A schedule that holds a tick for each time-unit left leads out of the wait before it is used up. -/
theorem wait_ends {s : State} (hinv : s.Inv) (hb : s.block.busy = true) (hadm : ∀ e ∈ s.env.events, e.admitted = true)
    (hticks : s.block.c.timer.toNat ≤ s.env.events.count .tick) :
    ∃ k ≤ s.env.events.length, ∃ t : State, Host.Core.run core k s = .next t ∧ t.block.busy = false := by
  induction hev : s.env.events generalizing s with
  | nil =>
    have hpos := timer_pos_of_busy hinv hb
    rw [hev, List.count_nil] at hticks
    omega
  | cons e rest ih =>
    obtain ⟨t, hstep⟩ := (step_answers_iff hev).mpr (hadm e (by simp [hev]))
    have htail : t.env.events = rest := by rw [step_events hstep, hev, List.tail_cons]
    cases hbt : t.block.busy with
    | false => exact ⟨1, by simp, t, run_of_next core 0 hstep, hbt⟩
    | true =>
      have htimer := (step_timer_of_busy hev hb (timer_pos_of_busy hinv hb) hstep).resolve_left (by simp [hbt])
      have hcount : t.block.c.timer.toNat ≤ t.env.events.count .tick := by
        rw [hev, ← List.singleton_append, List.count_append] at hticks
        rw [htail]
        omega
      have hrest : ∀ e ∈ t.env.events, e.admitted = true := fun e he => hadm e (by simp [hev, htail ▸ he])
      obtain ⟨k, hk, u, hrun, hu⟩ := ih (everyStepKeepsTheInvariant s t hinv hstep) hbt hrest hcount htail
      exact ⟨k + 1, Nat.succ_le_succ hk, u, (run_of_next core k hstep).trans hrun, hu⟩

/-- Settles O54: the bound on C_TIMER is the invariant's own. -/
theorem everyWaitEnds : Obligations.EveryWaitEnds := by
  intro s hinv hb hadm hticks
  obtain ⟨-, htimer, -⟩ := id hinv
  exact ⟨htimer, wait_ends hinv hb hadm hticks⟩

end Sys2Proof.Machine
end

section
/-! What the commands may change, with which codes they end, and what a step sends (spec/30_encoding.md R98, spec/60_exceptions.md R207
and R209, spec/20_memory.md R63). -/

namespace Sys2Proof.Machine

open Sys2Proof.Claims

/-! ### The registers that each update leaves alone -/

theorem readReg_onlyErr {r : Reg} (h : r ≠ .ERR) (e : Err) (s : State) : readReg r (onlyErr e s).block = readReg r s.block := by
  cases r with
  | ERR => exact absurd rfl h
  | _ => rfl

theorem readReg_putCsum {r : Reg} (h : r ≠ .R_CSUM) (v : Half) (s : State) : readReg r (putCsum v s).block = readReg r s.block := by
  cases r with
  | R_CSUM => exact absurd rfl h
  | _ => rfl

theorem readReg_putObuf {r : Reg} (h : r ≠ .OLEN) (b : List Byte) (s : State) :
    readReg r (putObuf b s).block = readReg r s.block := by
  cases r with
  | OLEN => exact absurd rfl h
  | _ => rfl

theorem readReg_putTcp {r : Reg} (h : r ∉ mayWrite .decTcp) (f : TcpHeader) (s : State) :
    readReg r (putTcp f s).block = readReg r s.block := by
  cases r with
  | T_SPORT | T_DPORT | T_SEQ | T_ACK | T_DOFF | T_FLAGS | T_WIN | T_CSUM | T_URG | R_TCPHL => exact absurd (by decide) h
  | _ => rfl

theorem readReg_putIp {r : Reg} (h : r ∉ mayWrite .decIp) (g : IpHeader) (s : State) :
    readReg r (putIp g s).block = readReg r s.block := by
  cases r with
  | I_VER | I_IHL | I_TOS | I_TOTLEN | I_ID | I_FRAG | I_TTL | I_PROTO | I_CSUM | I_SRC | I_DST | R_IPHL =>
    exact absurd (by decide) h
  | _ => rfl

theorem readReg_putParsed {r : Reg} (h : r ∉ mayWrite .parse) (p : Option ParsedPacket) (s : State) :
    readReg r (putParsed p s).block = readReg r s.block := by
  cases r with
  | P_VALID | P_SPORT | P_DPORT | P_SEQ | P_ACK | P_FLAGS | P_IPHL | P_TCPHL | P_PAYOFF | P_PAYLEN => exact absurd (by decide) h
  | _ => rfl

theorem readReg_advanceSeq {r : Reg} (h : r ≠ .C_SEQ) (s : State) : readReg r (advanceSeq s).block = readReg r s.block := by
  cases r with
  | C_SEQ => exact absurd rfl h
  | _ => rfl

/-- Every command may write ERR. -/
theorem ne_ERR_of_not_mem_mayWrite {i : Instr} {r : Reg} (h : r ∉ mayWrite i) : r ≠ .ERR := by
  rintro rfl
  cases i <;> exact absurd (by decide) h

/-! ### The registers that each effect of a command leaves alone (R98) -/

theorem LocalWrite.readReg_eq {s u : State} {i : Instr} (hw : LocalWrite s i u) {r : Reg} (h : r ∉ mayWrite i) :
    readReg r u.block = readReg r s.block := by
  cases hw with
  | csum v => exact readReg_putCsum (ne_of_mem_of_not_mem (by decide) h).symm v s
  | output b hi _ =>
    have hrows : ∀ j ∈ [Instr.pseudo, .encTcp, .encIp, .buildIp], Reg.OLEN ∈ mayWrite j := by decide
    exact readReg_putObuf (ne_of_mem_of_not_mem (hrows i hi) h).symm b s
  | tcp f => exact readReg_putTcp h f s
  | ip g => exact readReg_putIp h g s
  | summedOutput b v hi _ =>
    have hrows : ∀ j ∈ [Instr.buildTcp, .buildPkt], Reg.OLEN ∈ mayWrite j ∧ Reg.R_CSUM ∈ mayWrite j := by decide
    obtain ⟨holen, hcsum⟩ := hrows i hi
    exact (readReg_putCsum (ne_of_mem_of_not_mem hcsum h).symm v _).trans
      (readReg_putObuf (ne_of_mem_of_not_mem holen h).symm b s)
  | parsed => exact readReg_putParsed h _ s

theorem readReg_openConnection {r : Reg} (h : r ∉ mayWrite .connect) (s : State) :
    readReg r (openConnection s).block = readReg r s.block := by
  cases r with
  | C_LOCAL_PORT | C_SEQ | C_ACK | C_TIMER | STATUS | OLEN | ERR => exact absurd (by decide) h
  | _ =>
    cases ha : synAnswer s with
    | ok => rw [openConnection_block_of_ok ha]; rfl
    | error => rw [openConnection_block_of_error ha]; rfl

/-- A SEND in IDLE has no BUSY to clear, whatever the transport answers. -/
theorem readReg_sendData {r : Reg} (h : r ∉ mayWrite .send) {s : State} (hb : s.block.busy = false) :
    readReg r (sendData s).block = readReg r s.block := by
  have herr : r ≠ .ERR := ne_ERR_of_not_mem_mayWrite h
  have hsent : readReg r (transmit (dataPacket s) s).block = readReg r s.block :=
    readReg_putObuf (ne_of_mem_of_not_mem (by decide) h).symm (dataPacket s) s
  cases ha : sendAnswer s with
  | ok =>
    have hseq := readReg_advanceSeq (ne_of_mem_of_not_mem (by decide) h).symm (transmit (dataPacket s) s)
    rw [sendData_of_ok ha]
    exact (readReg_onlyErr herr .noError _).trans (hseq.trans hsent)
  | error =>
    rw [sendData_of_error ha, raise_eq_onlyErr (s := transmit (dataPacket s) s) hb]
    exact (readReg_onlyErr herr _ _).trans hsent

/-- INIT may write every register. -/
theorem mem_mayWrite_init (r : Reg) : r ∈ mayWrite .init := by
  cases r <;> decide

theorem exec_readReg_eq {i : Instr} {s t : State} (hexec : exec i s = .next t) {r : Reg} (h : r ∉ mayWrite i)
    (hb : s.block.busy = false) : readReg r t.block = readReg r s.block := by
  have herr := ne_ERR_of_not_mem_mayWrite h
  obtain ⟨e, -, -, rfl⟩ | ⟨u, hw, rfl⟩ | ⟨rfl, -, rfl⟩ | ⟨rfl, -, -, rfl⟩ | ⟨rfl, -⟩ := exec_effects hexec
  · rw [raise_eq_onlyErr hb]
    exact readReg_onlyErr herr e s
  · exact (readReg_onlyErr herr .noError u).trans (hw.readReg_eq h)
  · exact readReg_openConnection h s
  · exact readReg_sendData h hb
  · exact absurd (mem_mayWrite_init r) h

/-! ### The buffers and the ports (R98) -/

theorem openConnection_keeps_input (s : State) :
    (openConnection s).block.ibuf = s.block.ibuf ∧ (openConnection s).block.pbuf = s.block.pbuf
    ∧ (openConnection s).env.epoch = s.env.epoch := by
  rw [openConnection_env]
  cases ha : synAnswer s with
  | ok => rw [openConnection_block_of_ok ha]; exact ⟨rfl, rfl, rfl⟩
  | error => rw [openConnection_block_of_error ha]; exact ⟨rfl, rfl, rfl⟩

theorem sendData_keeps_input (s : State) :
    (sendData s).block.ibuf = s.block.ibuf ∧ (sendData s).block.pbuf = s.block.pbuf ∧ (sendData s).env.epoch = s.env.epoch := by
  rw [sendData_env]
  cases ha : sendAnswer s with
  | ok => rw [sendData_block_of_ok ha]; exact ⟨rfl, rfl, rfl⟩
  | error => rw [sendData_block_of_error ha]; exact ⟨rfl, rfl, rfl⟩

theorem exec_keeps_input {i : Instr} {s t : State} (hexec : exec i s = .next t) (hi : i ≠ .init) :
    t.block.ibuf = s.block.ibuf ∧ t.block.pbuf = s.block.pbuf ∧ t.env.epoch = s.env.epoch := by
  obtain ⟨e, -, -, rfl⟩ | ⟨u, hw, rfl⟩ | ⟨-, -, rfl⟩ | ⟨-, -, -, rfl⟩ | ⟨hinit, -⟩ := exec_effects hexec
  · exact ⟨rfl, rfl, rfl⟩
  · obtain ⟨henv, -, -, -, hibuf, hpbuf⟩ := hw.keeps
    exact ⟨hibuf, hpbuf, congrArg Environment.epoch henv⟩
  · exact openConnection_keeps_input s
  · exact sendData_keeps_input s
  · exact absurd hinit hi

theorem LocalWrite.obuf_eq {s u : State} {i : Instr} (hw : LocalWrite s i u) (hi : i ∈ [Instr.csum, .decTcp, .decIp, .parse]) :
    u.block.obuf = s.block.obuf := by
  have hout : ∀ j ∈ [Instr.pseudo, .encTcp, .encIp, .buildIp] ++ [Instr.buildTcp, .buildPkt],
      j ∉ [Instr.csum, .decTcp, .decIp, .parse] := by decide
  cases hw with
  | csum | tcp | ip | parsed => rfl
  | output b hj _ => exact absurd hi (hout i (List.mem_append_left _ hj))
  | summedOutput b v hj _ => exact absurd hi (hout i (List.mem_append_right _ hj))

theorem exec_keeps_obuf {i : Instr} {s t : State} (hexec : exec i s = .next t)
    (hi : i ∈ [Instr.csum, .decTcp, .decIp, .parse]) : t.block.obuf = s.block.obuf := by
  obtain ⟨e, -, -, rfl⟩ | ⟨u, hw, rfl⟩ | ⟨rfl, -⟩ | ⟨rfl, -⟩ | ⟨rfl, -⟩ := exec_effects hexec
  · rfl
  · exact hw.obuf_eq hi
  iterate 3 exact absurd hi (by decide)

theorem exec_keeps_trace {i : Instr} {s t : State} (hexec : exec i s = .next t) (hconnect : i ≠ .connect) (hsend : i ≠ .send) :
    t.env.trace = s.env.trace := by
  obtain ⟨e, -, -, rfl⟩ | ⟨u, hw, rfl⟩ | ⟨hi, -⟩ | ⟨hi, -⟩ | ⟨-, rfl⟩ := exec_effects hexec
  · rfl
  · obtain ⟨henv, -⟩ := hw.keeps
    exact congrArg Environment.trace henv
  · exact absurd hi hconnect
  · exact absurd hi hsend
  · rfl

/-- Settles O49: each column of R98's table is a law above. -/
theorem commandsTouchOnlyWhatTheTableLists : Obligations.CommandsTouchOnlyWhatTheTableLists :=
  fun _ _ _ hexec => ⟨fun _ hr hb => exec_readReg_eq hexec hr hb, exec_keeps_input hexec, exec_keeps_obuf hexec,
    exec_keeps_trace hexec, exec_keeps_schedule hexec⟩

/-! ### The codes with which a command ends (spec/60_exceptions.md R207, R209) -/

theorem noError_mem_endings (i : Instr) : Err.noError ∈ endings i := by
  cases i <;> decide

theorem sendData_err (s : State) : (sendData s).block.err = .noError ∨ (sendData s).block.err = .transportError := by
  cases ha : sendAnswer s with
  | ok => rw [sendData_block_of_ok ha]; exact .inl rfl
  | error => rw [sendData_block_of_error ha]; exact .inr rfl

/-- Everything that ERR can hold after a command, with what the command has done. -/
theorem exec_err_cases {i : Instr} {s t : State} (hexec : exec i s = .next t) :
    (∃ e ∈ earlyErrors, e ∈ endings i ∧ t = raise e s)
    ∨ (t.block.err ∈ [Err.noError, .transportError] ∧ t.block.err ∈ endings i)
    ∨ (i = .connect ∧ t.block.busy = true ∧ t.block.err = s.block.err) := by
  obtain hearly | ⟨u, -, rfl⟩ | ⟨rfl, -, rfl⟩ | ⟨rfl, -, -, rfl⟩ | ⟨rfl, rfl⟩ := exec_effects hexec
  · exact .inl hearly
  · exact .inr (.inl ⟨by simp, noError_mem_endings i⟩)
  · obtain ⟨-, -, herr⟩ | ⟨hbusy, -, herr, -⟩ := openConnection_wait_cases s
    · rw [herr]
      exact .inr (.inl (by decide))
    · exact .inr (.inr ⟨rfl, hbusy, herr⟩)
  · obtain herr | herr := sendData_err s <;> rw [herr] <;> exact .inr (.inl (by decide))
  · exact .inr (.inl ⟨by simp [Block.reset], noError_mem_endings .init⟩)

theorem receiveStep_endings {s : State} (hb : s.block.busy = true) :
    ((receiveStep s).block.busy = true ∧ (receiveStep s).block.err = s.block.err)
    ∨ ((receiveStep s).block.busy = false ∧ (receiveStep s).block.err ∈ endings .connect) := by
  obtain ⟨hbusy, -, herr, -⟩ | ⟨hidle, ⟨-, herr⟩ | ⟨-, herr⟩⟩ := receiveStep_wait_cases s
  · exact .inl ⟨hbusy.trans hb, herr⟩
  · exact .inr ⟨hidle, by rw [herr]; decide⟩
  · exact .inr ⟨hidle, by rw [herr]; decide⟩

theorem tickStep_endings {s : State} (hb : s.block.busy = true) :
    ((tickStep s).block.busy = true ∧ (tickStep s).block.err = s.block.err)
    ∨ ((tickStep s).block.busy = false ∧ (tickStep s).block.err ∈ endings .connect) := by
  by_cases hlast : s.block.c.timer.toNat = 1
  · rw [tickStep_of_last hlast]
    exact .inr ⟨rfl, by simp [endings]⟩
  · rw [tickStep_of_not_last hlast]
    exact .inl ⟨hb, rfl⟩

/-- Settles O50: a command by `exec_err_cases`; a poll and a tick of the wait by what each of the two steps ends with. -/
theorem commandsEndWithTheirOwnErrors : Obligations.CommandsEndWithTheirOwnErrors := by
  refine ⟨fun i s t hexec => ?_, fun s t rest hb hev hstep => ?_, fun s t w rest e hb he hd hstep => ?_⟩
  · obtain ⟨e, -, he, rfl⟩ | ⟨-, he⟩ | hwait := exec_err_cases hexec
    · exact .inl he
    · exact .inl he
    · exact .inr hwait
  · obtain he | he := hev
    · obtain rfl := Host.Outcome.next.inj ((step_rx_of_busy he hb).symm.trans hstep)
      exact receiveStep_endings (s := setEvents rest s) hb
    · obtain rfl := Host.Outcome.next.inj ((step_tick_of_busy he hb).symm.trans hstep)
      exact tickStep_endings (s := setEvents rest s) hb
  · obtain rfl := Host.Outcome.next.inj ((step_command_of_error he hb hd).symm.trans hstep)
    rfl

/-- Settles O51: a command that ends with one of the four codes is a `raise`, and in IDLE that writes ERR alone. -/
theorem earlyErrorsChangeOnlyErr : Obligations.EarlyErrorsChangeOnlyErr := by
  intro i s t hb hexec hidle herr
  have hother : ∀ e ∈ [Err.noError, .transportError], e ∉ [Err.malformedHeader, .notConnected, .illegalCommand, .badLength] := by
    decide
  obtain ⟨e, -, -, rfl⟩ | ⟨hlate, -⟩ | ⟨-, hbusy, -⟩ := exec_err_cases hexec
  · exact raise_eq_onlyErr hb e
  · exact absurd herr (hother _ hlate)
  · simp [hidle] at hbusy

/-! ### What a step sends (spec/20_memory.md R63, spec/30_encoding.md R88) -/

/-- What OBUF and OLEN hold after an output has been stored. -/
theorem slice_of_storesOutput {s t : State} {out : List Byte} (h : storesOutput s t out) :
    t.slice .obuf 0 t.block.olen.toNat = out := by
  obtain ⟨holen, hfront, -, -⟩ := h
  rw [holen]
  apply List.ext_getElem
  · simp
  · intro k _ hk
    rw [slice_getElem, Nat.zero_add, hfront k hk]

/-- The header of a built packet (R88, spec/42_packet_builder.md R142, R146). -/
theorem buildPacket_header (f : TcpHeader) (d : List Byte) (src dst : Word) (id : Half) :
    40 ≤ (buildPacket f d src dst id).length
    ∧ be16At (buildPacket f d src dst id) 2 = BitVec.ofNat 16 (buildPacket f d src dst id).length
    ∧ byteAt (buildPacket f d src dst id) 0 = 0x45 ∧ be16At (buildPacket f d src dst id) 10 = 0 := by
  have htotal : be16At (buildPacket f d src dst id) 2 = BitVec.ofNat 16 (ipHdrBytes + (buildSegment f d src dst).length) :=
    be16At_of_slice rfl
  have hversion : versionByte version defaultIhl = 0x45 := by decide
  refine ⟨by simp, ?_, hversion, be16At_of_slice rfl⟩
  rw [htotal, buildSegment_length, buildPacket_length, ipHdrBytes, ← Nat.add_assoc]

/-- A packet of the builder that fits the length field and is what OBUF and OLEN hold. -/
def IsBuiltOutput (t : State) (pkt : List Byte) : Prop :=
  t.slice .obuf 0 t.block.olen.toNat = pkt ∧ pkt.length ≤ 65535 ∧ ∃ f d src dst id, pkt = buildPacket f d src dst id

theorem isBuiltOutput_controllerPacket {s t : State} {c : ConnectionFile} {seq ack : Word} {flags : BitVec 6} {d : List Byte}
    (h : storesOutput s t (controllerPacket c seq ack flags d)) (hd : d.length ≤ 65495) :
    IsBuiltOutput t (controllerPacket c seq ack flags d) :=
  ⟨slice_of_storesOutput h, by rw [controllerPacket_length]; omega, _, _, _, _, _, rfl⟩

section
variable {s t : State} {pkt : List Byte} {dst : Word} {r : SendAnswer}

theorem exec_sends {i : Instr} (hexec : exec i s = .next t) (hsent : .sent pkt dst r ∈ shown s t) :
    dst = s.block.c.remoteIp ∧ IsBuiltOutput t pkt := by
  obtain ⟨e, -, -, rfl⟩ | ⟨u, hw, rfl⟩ | ⟨-, -, rfl⟩ | ⟨-, -, hl, rfl⟩ | ⟨-, rfl⟩ := exec_effects hexec
  · exact absurd hsent (noSend_of_trace_eq rfl pkt dst r)
  · obtain ⟨henv, -⟩ := hw.keeps
    exact absurd hsent (noSend_of_trace_eq (congrArg Environment.trace henv) pkt dst r)
  · rw [shown_of_append (openConnection_trace s)] at hsent
    obtain ⟨rfl, rfl, -⟩ : pkt = synOf s ∧ dst = s.block.c.remoteIp ∧ r = synAnswer s := by simpa using hsent
    exact ⟨rfl, isBuiltOutput_controllerPacket (storesOutput_openConnection s) (by simp)⟩
  · rw [shown_of_append (sendData_trace s)] at hsent
    obtain ⟨rfl, rfl, -⟩ : pkt = dataPacket s ∧ dst = s.block.c.remoteIp ∧ r = sendAnswer s := by simpa using hsent
    exact ⟨rfl, isBuiltOutput_controllerPacket (storesOutput_sendData hl) ((payload_length s).trans_le hl)⟩
  · exact absurd hsent (noSend_of_trace_eq rfl pkt dst r)

theorem receiveStep_sends (hsent : .sent pkt dst r ∈ shown s (receiveStep s)) :
    dst = s.block.c.remoteIp ∧ IsBuiltOutput (receiveStep s) pkt := by
  have hpoll {t : State} (ht : t.env.trace = s.env.trace ++ [.polled rxMax (recvAnswer s)]) : .sent pkt dst r ∉ shown s t := by
    simp [shown_of_append ht]
  obtain ⟨-, hrx⟩ | ⟨-, hrx⟩ | ⟨b, -, hrx⟩ | ⟨b, p, -, -, -, -, hrx⟩ := receiveStep_cases s <;> rw [hrx] at hsent ⊢
  · exact absurd hsent (hpoll rfl)
  · exact absurd hsent (hpoll rfl)
  · exact absurd hsent (hpoll rfl)
  · have htrace : (accept p (putParsed (some p) (putIbuf b (afterRecv s)))).env.trace = s.env.trace
        ++ [.polled rxMax (recvAnswer s), .sent (ackOf s.block.c p) s.block.c.remoteIp (sendAnswer (afterRecv s))] := by
      rw [accept_env, afterSend_trace]
      exact List.append_assoc ..
    rw [shown_of_append htrace] at hsent
    obtain ⟨rfl, rfl, -⟩ : pkt = ackOf s.block.c p ∧ dst = s.block.c.remoteIp ∧ r = sendAnswer (afterRecv s) := by
      simpa using hsent
    exact ⟨rfl, isBuiltOutput_controllerPacket (storesOutput_accept p (putParsed (some p) (putIbuf b (afterRecv s)))) (by simp)⟩

/-- Whatever a step sends is its built output, and goes to C_REMOTE_IP. -/
theorem step_sends (hstep : step s = .next t) (hsent : .sent pkt dst r ∈ shown s t) :
    dst = s.block.c.remoteIp ∧ IsBuiltOutput t pkt := by
  obtain ⟨hquiet, -⟩ | ⟨e, rest, -, hcases⟩ := step_effects hstep
  · exact absurd hsent (hquiet.noSend pkt dst r)
  obtain ⟨i, -, -, hexec⟩ | ⟨-, -, rfl⟩ | ⟨-, -, rfl⟩ | ⟨-, rfl⟩ := hcases
  · exact exec_sends (s := setEvents rest s) hexec hsent
  · exact receiveStep_sends (s := setEvents rest s) hsent
  · have htrace : (tickStep (setEvents rest s)).env.trace = s.env.trace := by rw [tickStep_env, setEvents_trace]
    exact absurd hsent (noSend_of_trace_eq htrace pkt dst r)
  · exact absurd hsent (noSend_of_trace_eq rfl pkt dst r)

end

/-- Settles O53: what is sent is the output stored, and has the header of a built packet. -/
theorem sentPacketsAreTheBuiltOnes : Obligations.SentPacketsAreTheBuiltOnes := by
  intro s t pkt dst r hstep hsent
  obtain ⟨hdst, hslice, hlen, f, d, src, dst', id, rfl⟩ := step_sends hstep hsent
  obtain ⟨hmin, htotal, hversion, hcsum⟩ := buildPacket_header f d src dst' id
  exact ⟨hdst, hslice.symm, hmin, htotal, hlen, hversion, hcsum⟩

end Sys2Proof.Machine
end

section
/-! The bounds of the checksum's sum (spec/40_checksum.md R115), the checksum of a built segment (spec/42_packet_builder.md R148), and
what a parse does not read (spec/43_packet_parser.md R158). -/

namespace Sys2Proof.Machine

open Sys2Proof.Claims

/-! ### The sum in 32 bits, and two folds (R115) -/

/-- Each word is at most 0xFFFF, and an odd last byte is the high byte of one. -/
theorem rawSum_le : ∀ b : List Byte, rawSum b ≤ 65535 * ((b.length + 1) / 2)
  | [] => Nat.le_refl 0
  | [x] => by
    have hx := x.isLt
    rw [rawSum_singleton, List.length_singleton]
    omega
  | x :: y :: r => by
    have hx := x.isLt
    have hy := y.isLt
    have hr := rawSum_le r
    rw [rawSum_cons_cons, List.length_cons, List.length_cons]
    omega

theorem foldl_add_ofNat (l : List Nat) (acc : BitVec 32) :
    l.foldl (fun acc x => acc + BitVec.ofNat 32 x) acc = acc + BitVec.ofNat 32 l.sum := by
  induction l generalizing acc with
  | nil => simp
  | cons x r ih => rw [List.foldl_cons, ih, List.sum_cons, BitVec.ofNat_add, BitVec.add_assoc]

theorem sum32_eq (b : List Byte) : sum32 b = BitVec.ofNat 32 (rawSum b) := by
  rw [sum32, foldl_add_ofNat, rawSum]
  exact BitVec.zero_add _

theorem foldCarries_of_lt {sum : Nat} (h : sum < 65536) (turns : Nat) : foldCarries turns sum = sum := by
  cases turns with
  | zero => rfl
  | succ n => exact if_pos (Nat.div_eq_of_lt h)

theorem foldCarries_succ_of_ge {sum : Nat} (h : 65536 ≤ sum) (turns : Nat) :
    foldCarries (turns + 1) sum = foldCarries turns (foldOnce sum) :=
  if_neg (by omega)

/-- Where two folds leave no carry, more turns change nothing. -/
theorem foldCarries_add_two {sum : Nat} (h : 65536 ≤ foldOnce sum → foldOnce (foldOnce sum) < 65536) (n : Nat) :
    foldCarries (n + 2) sum = foldCarries 2 sum := by
  obtain hlt | hge := Nat.lt_or_ge sum 65536
  · rw [foldCarries_of_lt hlt, foldCarries_of_lt hlt]
  rw [foldCarries_succ_of_ge hge, foldCarries_succ_of_ge hge]
  obtain hlt' | hge' := Nat.lt_or_ge (foldOnce sum) 65536
  · rw [foldCarries_of_lt hlt', foldCarries_of_lt hlt']
  rw [foldCarries_succ_of_ge hge', foldCarries_succ_of_ge hge', foldCarries_of_lt (h hge'), foldCarries_of_lt (h hge')]

/-- Settles O6: the bounds follow from the number of words, and the second fold leaves no carry. -/
theorem checksumAccumulatorFits : Obligations.ChecksumAccumulatorFits := by
  intro b hb
  have hsum : rawSum b ≤ 0x80057FFA := by
    have hle := rawSum_le b
    omega
  have hfirst : foldOnce (rawSum b) ≤ 0x18004 := by
    rw [foldOnce]
    omega
  have hsecond : 65536 ≤ foldOnce (rawSum b) → foldOnce (foldOnce (rawSum b)) ≤ 0x8005 := by
    intro hge
    rw [foldOnce]
    omega
  refine ⟨hsum, ?_, hfirst, fun hcarry => hsecond (by omega), ?_⟩
  · rw [sum32_eq, BitVec.toNat_ofNat]
    omega
  · obtain hlt | hge := Nat.lt_or_ge (rawSum b) 2
    · rw [foldedSum, foldCarries_of_lt (by omega), foldCarries_of_lt (by omega)]
    · obtain ⟨n, hn⟩ := Nat.exists_eq_add_of_le' hge
      have hturns := foldCarries_add_two (fun hge => Nat.lt_of_le_of_lt (hsecond hge) (by decide)) n
      rw [foldedSum, ← hturns, ← hn]

/-- Settles O8: a built segment is a TCP header with its checksum, behind the pseudo-header that the checksum is over. -/
theorem builtSegmentsVerify : Obligations.BuiltSegmentsVerify := by
  intro f d src dst _
  rw [buildSegment_length]
  exact foldedSum_tcp_with_checksum (p := pseudoHeader src dst 6 (BitVec.ofNat 16 (20 + d.length))) (by simp) f d

/-! ### What a parse reads (R158) -/

theorem be16At_congr {b b' : List Byte} {k : Nat} (h : ∀ j < 2, byteAt b (k + j) = byteAt b' (k + j)) : be16At b k = be16At b' k := by
  rw [be16At, be16At, h 1 (by decide), show byteAt b k = byteAt b' k from h 0 (by decide)]

theorem be32At_congr {b b' : List Byte} {k : Nat} (h : ∀ j < 4, byteAt b (k + j) = byteAt b' (k + j)) : be32At b k = be32At b' k := by
  rw [be32At, be32At, h 1 (by decide), h 2 (by decide), h 3 (by decide), show byteAt b k = byteAt b' k from h 0 (by decide)]

/-- The packet found depends on the length and on the first 14 bytes of the TCP header. -/
theorem packetOf_congr {raw raw' : List Byte} {n : Nat} {f f' : TcpHeader} (hlen : raw.length = raw'.length)
    (hbytes : ∀ k < 14, byteAt raw (n + k) = byteAt raw' (n + k))
    (hf : decodeTcp ((raw.drop n).take 20) = some f) (hf' : decodeTcp ((raw'.drop n).take 20) = some f') :
    packetOf raw n f = packetOf raw' n f' := by
  have hsport : be16At raw n = be16At raw' n := be16At_congr fun j hj => hbytes j (by omega)
  have hfield (k : Nat) {m : Nat} (hk : k + m ≤ 14) : ∀ j < m, byteAt raw (n + k + j) = byteAt raw' (n + k + j) := fun j hj => by
    rw [Nat.add_assoc]
    exact hbytes (k + j) (by omega)
  rw [decodeTcp_slice hf, decodeTcp_slice hf']
  simp only [packetOf, hlen, hbytes 12 (by decide), hbytes 13 (by decide), hsport,
    be16At_congr (hfield 2 (by decide)), be32At_congr (hfield 4 (by decide)), be32At_congr (hfield 8 (by decide))]

/-- Settles O24: the two sequences have one length of the IPv4 header, and find a packet or none alike. -/
theorem parseReadsNothingElse : Obligations.ParseReadsNothingElse := by
  intro raw raw' hlen hnibble hbytes
  have hihl : ipHeaderLength raw' = ipHeaderLength raw := by rw [ipHeaderLength_eq, ipHeaderLength_eq, hnibble]
  rw [← ipHeaderLength_eq] at hbytes
  obtain ⟨hshort, hnone⟩ | ⟨hfirst, hlong, f, hf, hsome⟩ := parse_cases raw
  · rw [hnone, eq_comm, parse_eq_none_iff, ← hlen, hihl]
    exact hshort
  · obtain ⟨hshort', -⟩ | ⟨-, -, f', hf', hsome'⟩ := parse_cases raw'
    · omega
    · rw [hihl] at hf' hsome'
      rw [hsome, hsome', packetOf_congr hlen hbytes hf hf']

end Sys2Proof.Machine
end

section
/-! The bytes of a buffer: `MemWrite` (spec/20_memory.md R52, R53), a host write (R56), and the script line LDBUF (spec/30_encoding.md
R101). -/

namespace Sys2Proof.Machine

open Sys2Proof.Claims

/-! ### Writing bytes one at a time -/

theorem Memory.read_writeAll_outside (b : List Byte) (m : Memory) (k : Nat) {j : Nat} (h : j < k ∨ k + b.length ≤ j) :
    Memory.read (Memory.writeAll m k b) j = Memory.read m j := by
  induction b generalizing m k with
  | nil => rfl
  | cons x r ih =>
    rw [List.length_cons] at h
    rw [Memory.writeAll, ih _ _ (by omega), Memory.read_write_other m x (by omega)]

theorem Memory.read_writeAll_inside (b : List Byte) (m : Memory) (k : Nat) {j : Nat} (h : j < b.length) :
    Memory.read (Memory.writeAll m k b) (k + j) = some b[j] := by
  induction b generalizing m k j with
  | nil => exact absurd h (Nat.not_lt_zero j)
  | cons x r ih =>
    rw [Memory.writeAll]
    cases j with
    | zero => rw [Memory.read_writeAll_outside r _ _ (by omega)]; exact Memory.read_write_same m k x
    | succ j =>
      rw [show k + (j + 1) = k + 1 + j by omega]
      exact ih _ _ (Nat.lt_of_succ_lt_succ h)

/-- A buffer that holds `b` from index `k` on reads as `b` there. -/
theorem slice_of_read {s : State} {buf : Buf} {k : Nat} {b : List Byte}
    (h : ∀ j (hj : j < b.length), Memory.read (s.block.buf buf) (k + j) = some b[j]) : s.slice buf k b.length = b := by
  apply List.ext_getElem
  · simp
  · intro j _ hj
    rw [slice_getElem, State.readByte, h j hj]

theorem beNumber_beBytes (n v : Nat) : beNumber (beBytes n v) = v % 256 ^ n := by
  induction n with
  | zero => rw [Nat.pow_zero, Nat.mod_one]; rfl
  | succ n ih =>
    rw [beBytes, beNumber, ih, beBytes_length, BitVec.toNat_ofNat, Nat.mod_pow_succ (b := 256), Nat.mul_comm, Nat.add_comm]

/-- Settles O45: the slice written holds the bytes of the number, and reading them inverts writing them. -/
theorem memReadAfterMemWrite : Obligations.MemReadAfterMemWrite := by
  intro s off n v hv t
  have hslice : t.slice .obuf off (beBytes n v).length = beBytes n v :=
    slice_of_read fun j hj => Memory.read_writeAll_inside _ s.block.obuf off hj
  rw [beBytes_length] at hslice
  refine ⟨?_, fun k hk => ?_⟩
  · rw [State.memRead, hslice, beNumber_beBytes, Nat.mod_eq_of_lt hv]
  · have hread : Memory.read (t.block.buf .obuf) k = Memory.read (s.block.buf .obuf) k :=
      Memory.read_writeAll_outside (beBytes n v) s.block.obuf off (by simpa using hk)
    rw [State.readByte, State.readByte, hread]

/-! ### A host write to a buffer (spec/20_memory.md R56) -/

theorem buf_writeBuf_other {b b' : Buf} (h : b' ≠ b) (k : Nat) (v : Byte) (blk : Block) :
    (writeBuf b k v blk).buf b' = blk.buf b' := by
  cases b with
  | ibuf =>
    cases b' with
    | ibuf => exact absurd rfl h
    | obuf | pbuf => rfl
  | obuf => rfl
  | pbuf =>
    cases b' with
    | pbuf => exact absurd rfl h
    | ibuf | obuf => rfl

theorem read_buf_writeBuf_other (b : Buf) {k k' : Nat} (h : k' ≠ k) (v : Byte) (blk : Block) :
    Memory.read ((writeBuf b k v blk).buf b) k' = Memory.read (blk.buf b) k' := by
  cases b with
  | ibuf | pbuf => exact Memory.read_write_other _ v h
  | obuf => rfl

theorem readByte_writeBuf_other (s : State) {b b' : Buf} {k k' : Nat} (h : b' ≠ b ∨ k' ≠ k) (v : Byte) :
    State.readByte { s with block := writeBuf b k v s.block } b' k' = s.readByte b' k' := by
  have hread : Memory.read ((writeBuf b k v s.block).buf b') k' = Memory.read (s.block.buf b') k' := by
    by_cases hb : b' = b
    · subst hb
      exact read_buf_writeBuf_other b' (h.resolve_left (· rfl)) v s.block
    · rw [buf_writeBuf_other hb]
  simp only [State.readByte, hread]

theorem writeBuf_frame (b : Buf) (k : Nat) (v : Byte) (blk : Block) :
    writeBuf b k v blk = { blk with ibuf := (writeBuf b k v blk).ibuf, pbuf := (writeBuf b k v blk).pbuf } := by
  cases b <;> rfl

/-- Settles O43: the step is `writeBuf`, which for OBUF does nothing. -/
theorem hostBufWriteStoresOneByte : Obligations.HostBufWriteStoresOneByte := by
  intro s rest b k v hk hb he
  refine ⟨_, step_hostBufWrite_of_idle he hk hb, rfl, fun hbuf => readByte_writeBuf_same (setEvents rest s) hbuf k v,
    fun b' k' h => readByte_writeBuf_other (setEvents rest s) h v, ?_, writeBuf_frame b k v s.block⟩
  rintro rfl
  rfl

/-! ### LDBUF (spec/30_encoding.md R101) -/

/-- The block after the host has written the bytes of `got` to a buffer from index `k` on. -/
def loadBuf (b : Buf) (k : Nat) (got : List Byte) (blk : Block) : Block :=
  match b with
  | .ibuf => { blk with ibuf := Memory.writeAll blk.ibuf k got }
  | .obuf => blk
  | .pbuf => { blk with pbuf := Memory.writeAll blk.pbuf k got }

theorem loadBuf_nil (b : Buf) (k : Nat) (blk : Block) : loadBuf b k [] blk = blk := by cases b <;> rfl

theorem loadBuf_cons (b : Buf) (k : Nat) (x : Byte) (got : List Byte) (blk : Block) :
    loadBuf b k (x :: got) blk = loadBuf b (k + 1) got (writeBuf b k x blk) := by cases b <;> rfl

theorem loadBuf_busy (b : Buf) (k : Nat) (got : List Byte) (blk : Block) : (loadBuf b k got blk).busy = blk.busy := by
  cases b <;> rfl

theorem buf_loadBuf {b : Buf} (h : b ≠ .obuf) (k : Nat) (got : List Byte) (blk : Block) :
    (loadBuf b k got blk).buf b = Memory.writeAll (blk.buf b) k got := by
  cases b with
  | obuf => exact absurd rfl h
  | ibuf | pbuf => rfl

/-- The writes of a load, one step each, in IDLE. -/
theorem run_bufWrites (n : Nat) {s : State} {b : Buf} {k : Nat} {got : List Byte} {rest : List Event}
    (he : s.env.events = bufWrites b k got ++ rest) (hb : s.block.busy = false) (hlen : k + got.length ≤ 65535) :
    Host.Core.run core (got.length + n) s
      = Host.Core.run core n ({ setEvents rest s with block := loadBuf b k got s.block } : State) := by
  induction got generalizing s k with
  | nil =>
    have hs : s = { setEvents rest s with block := loadBuf b k [] s.block } := by
      rw [loadBuf_nil, ← show s.env.events = rest from he]
      rfl
    rw [← hs, List.length_nil, Nat.zero_add]
  | cons x r ih =>
    rw [List.length_cons] at hlen ⊢
    have hstep := step_hostBufWrite_of_idle (rest := bufWrites b (k + 1) r ++ rest) he (show k < 65535 by omega) hb
    obtain ⟨hbusy, -⟩ := writeBuf_keeps_control b k x s.block
    have hrest := ih (s := { setEvents (bufWrites b (k + 1) r ++ rest) s with block := writeBuf b k x s.block }) (k := k + 1)
      rfl (hbusy.trans hb) (by omega)
    rw [Nat.add_right_comm, run_of_next core _ hstep, loadBuf_cons]
    exact hrest

/-- The state after a load: the bytes stored, and their number in the length register. -/
def loaded (b : Buf) (r : Reg) (got : List Byte) (rest : List Event) (s : State) : State :=
  { setEvents rest s with block := writeReg r (BitVec.ofNat 32 got.length) (loadBuf b 0 got s.block) }

theorem run_load {s : State} {b : Buf} {r : Reg} {got : List Byte} {rest : List Event} (hr : regNumber r ≠ 0)
    (he : s.env.events = bufWrites b 0 got ++ scriptWr r (BitVec.ofNat 32 got.length) ++ rest) (hb : s.block.busy = false)
    (hlen : got.length ≤ 65535) : Host.Core.run core (got.length + 1) s = .next (loaded b r got rest s) := by
  rw [List.append_assoc] at he
  rw [run_bufWrites 1 he hb (by omega)]
  refine (run_of_next core 0 (step_hostWrite_of_idle (rest := rest) rfl hr ((loadBuf_busy b 0 got s.block).trans hb))).trans ?_
  rw [writeNumber_of_some (regOfNumber_regNumber r)]
  rfl

theorem slice_loaded {b : Buf} (hbuf : b ≠ .obuf) (r : Reg) (got : List Byte) (rest : List Event) (s : State) :
    (loaded b r got rest s).slice b 0 got.length = got := by
  refine slice_of_read fun j hj => ?_
  rw [loaded, buf_writeReg, buf_loadBuf hbuf]
  exact Memory.read_writeAll_inside got _ 0 hj

/-- The length register holds the number of bytes, which fits its 16 bits. -/
theorem toNat_length_register {n : Nat} (h : n ≤ 65535) : ((BitVec.ofNat 32 n).setWidth 16).toNat = n := by
  rw [BitVec.toNat_setWidth, BitVec.toNat_ofNat]
  omega

/-- Settles O44: both loads are `loaded`, with their own buffer and length register. -/
theorem loadedBytesAreTheInput : Obligations.LoadedBytesAreTheInput := by
  intro s got rest hlen hb
  refine ⟨fun he => ⟨_, run_load (by decide) he hb hlen, ?_, rfl, rfl⟩, fun he => ⟨_, run_load (by decide) he hb hlen, ?_, rfl, rfl⟩⟩
  · have hilen : (loaded .ibuf .ILEN got rest s).block.ilen.toNat = got.length := toNat_length_register hlen
    rw [hilen]
    exact slice_loaded (by decide) .ILEN got rest s
  · have hplen : (loaded .pbuf .PLEN got rest s).block.plen.toNat = got.length := toNat_length_register hlen
    rw [hplen]
    exact slice_loaded (by decide) .PLEN got rest s

end Sys2Proof.Machine
end
